-- ==== Sys2Proof/Word.lean ====
section
/-! DEFINITION. The two word widths of the block (spec 00_scope.md R5, R6): every value is an unsigned bit vector
whose bit 0 is the least significant. -/

namespace Sys2Proof

/-- An 8-bit value: operand, response, accumulator, fold constant, transmitted byte (R5, R7). -/
abbrev Byte := BitVec 8

/-- A 16-bit command word as it stands on the command port (R45, R47). -/
abbrev Word := BitVec 16

end Sys2Proof
end

