-- ==== Sys2Proof/Config.lean ====
section
/-! DEFINITION. The open parameters of 00_scope.md R5 and the free values of 93_implementation_defined.md U2 to U12.
A constant without a body is one nothing can be proved of: a claim that holds, holds whatever it is. -/

namespace Sys2Proof.Config

/-- ACC_AT_RESET (R5, R28, D7): what the accumulator holds after a hardware reset, "any 8-bit value", one for each reset.
DESIGN CHOICE (log 1). Safe: a free value. -/
opaque accAtReset : Nat → Byte

/-- The level of `tx_empty` after a hardware reset (R28, U9), one for each reset. DESIGN CHOICE (log 3). Safe: a free value. -/
opaque txEmptyAtReset : Nat → Bool

/-- The level of `fc_nrdy` when the machine starts (R28, U12). DESIGN CHOICE (log 3). Safe: a free value. -/
opaque fcNrdyAtReset : Bool

/-- The draw of U4: what a sample sees when `fc_nrdy` does not determine it, one for each sample. DESIGN CHOICE (log 4).
Safe: a free value. -/
opaque freeSample : Nat → Bool

/-- What the master's own copy of the last response holds before any command has responded (R24, R28).
DESIGN CHOICE (log 5). Safe: a free value. -/
opaque rspAtReset : Byte

/-- F_CLK in hertz (R5, D12): open. -/
opaque clockHz : Nat

/-- By how many microseconds this implementation's guard delay exceeds the nominal 50 (R84, R149): open. -/
opaque guardMarginUs : Nat

/-- T_GUARD in microseconds: at least the nominal 50, which is a lower bound (R5, R84, R149). -/
def guardUs : Nat := 50 + guardMarginUs

/-- `ceil(n / d)`: whole cycles, rounded up (R84, D12). -/
def ceilDiv (n d : Nat) : Nat := n / d + (if n % d = 0 then 0 else 1)

/-- Microseconds in a second. -/
def usPerSecond : Nat := 1000000

/-- GUARD_CYCLES = ceil(T_GUARD * F_CLK) (R5, R84). -/
def guardCycles : Nat := ceilDiv (guardUs * clockHz) usPerSecond

/-- FC_SYNC_STAGES (R5, R19, D10): open. No rule's result depends on it: a sample it delays is the free draw of `freeSample`. -/
opaque syncStages : Nat

/-- The electrical level of a pin. -/
inductive PinLevel
  | low
  | high
deriving DecidableEq, Repr, Inhabited

/-- FC_PIN_ACTIVE_LEVEL (R5, R18, D8): the pin level that means "not ready": open. -/
opaque pinActiveLevel : PinLevel

end Sys2Proof.Config
end

