-- ==== Sys2Proof/Syntax.lean ====
section
/-! DEFINITION. The command set (30_encoding.md R46): exactly five commands, one constructor per row of
opcode_table.json. -/

namespace Sys2Proof

/-- A command. The one operand form is `imm8`, a byte used as it stands (R49), so the type admits exactly the legal
operands and every value of the type is well formed. -/
inductive Instr
  /-- `CSUM.RESET`, the document's `reset()` (R62). -/
  | csumReset
  /-- `CSUM.UPDATE b`, the document's `update(byte)` (R63). -/
  | csumUpdate (b : Byte)
  /-- `CSUM.VALUE`, the document's `value()` (R64). -/
  | csumValue
  /-- `TX.SENDBYTE b`, the document's `sendByte(b)` (R81). -/
  | txSendByte (b : Byte)
  /-- `FC.STATUS`, the document's `flowControlAsserted()` with the buffer level beside it (R90). -/
  | fcStatus
deriving DecidableEq, Repr

end Sys2Proof
end

