-- ==== Sys2Proof/WellFormed.lean ====
section
/-! DEFINITION. When the three fields of a format C word are a legal command (30_encoding.md R47, R51), with the reason
by name when they are not. `Instr` itself needs no check: its operand is a byte and every byte is legal (R49). -/

namespace Sys2Proof

/-- The three fields of format C (R47). -/
structure FormatC where
  /-- `cmd[15:12]` -/
  zero : BitVec 4
  /-- `cmd[11:8]` -/
  op : BitVec 4
  /-- `cmd[7:0]` -/
  imm8 : Byte
deriving DecidableEq, Repr

/-- Why a word is reserved (R51). -/
inductive Reserved
  /-- R51 (a): `cmd[15:12]` is not zero. -/
  | zeroField
  /-- R51 (b), (c): `op` is 0, or 6 to 15. -/
  | opcode
  /-- R51 (d): a command without an operand has a non-zero `imm8`. -/
  | operand
deriving DecidableEq, Repr

/-- Does command number `op` take an operand (R47: `imm8` "must be 0x00 for the three commands without an operand"). -/
def takesOperand (op : BitVec 4) : Bool := op = 2 || op = 4

/-- The reason the fields are reserved, or none where they are legal (R51). -/
def FormatC.reserved (f : FormatC) : Option Reserved :=
  if f.zero ≠ 0 then some .zeroField
  else if f.op = 0 ∨ 6 ≤ f.op.toNat then some .opcode
  else if takesOperand f.op = false ∧ f.imm8 ≠ 0 then some .operand
  else none

/-- The fields spell a legal command. -/
abbrev FormatC.wf (f : FormatC) : Prop := f.reserved = none

end Sys2Proof
end

