-- ==== Sys2Proof/Decode.lean ====
section
/-! DEFINITION. The decoder (30_encoding.md R57), total on 16-bit words and refusing by name, the encoder, and the opcode
map as the table prints it (R48). -/

namespace Sys2Proof

/-- The fields of a command word (R47). -/
def fieldsOf (w : Word) : FormatC where
  zero := w.extractLsb' 12 4
  op := w.extractLsb' 8 4
  imm8 := w.extractLsb' 0 8

/-- The command word of three fields (R47). -/
def wordOf (f : FormatC) : Word := f.zero ++ f.op ++ f.imm8

/-- A command without an operand: legal only with `imm8` zero (R51 (d)). -/
def noOperand (imm8 : Byte) (i : Instr) : Except Reserved Instr :=
  if imm8 = 0 then .ok i else .error .operand

/-- The decoder of R57. -/
def decode (w : Word) : Except Reserved Instr :=
  let f := fieldsOf w
  if f.zero ≠ 0 then .error .zeroField
  else match f.op.toNat with
    | 1 => noOperand f.imm8 .csumReset
    | 2 => .ok (.csumUpdate f.imm8)
    | 3 => noOperand f.imm8 .csumValue
    | 4 => .ok (.txSendByte f.imm8)
    | 5 => noOperand f.imm8 .fcStatus
    | _ => .error .opcode

/-- The fields of a command (R47, R48). -/
def Instr.fields : Instr → FormatC
  | .csumReset => ⟨0, 1, 0⟩
  | .csumUpdate b => ⟨0, 2, b⟩
  | .csumValue => ⟨0, 3, 0⟩
  | .txSendByte b => ⟨0, 4, b⟩
  | .fcStatus => ⟨0, 5, 0⟩

/-- The encoder: the inverse of the decoder on the five legal outcomes (R57). -/
def encode (i : Instr) : Word := wordOf i.fields

/-- A row of the opcode map (R48). -/
structure OpcodeRow where
  mnemonic : String
  pattern : Word
  mask : Word
deriving DecidableEq, Repr

/-- The opcode map of R48, its five legal rows. -/
def opcodeTable : List OpcodeRow :=
  [⟨"CSUM.RESET", 0x0100, 0xffff⟩, ⟨"CSUM.UPDATE", 0x0200, 0xff00⟩, ⟨"CSUM.VALUE", 0x0300, 0xffff⟩,
   ⟨"TX.SENDBYTE", 0x0400, 0xff00⟩, ⟨"FC.STATUS", 0x0500, 0xffff⟩]

/-- "A word `w` is the command of a row exactly when `(w & mask) == match`" (R48). -/
def OpcodeRow.isRowOf (r : OpcodeRow) (w : Word) : Bool := (w &&& r.mask) == r.pattern

/-- The mnemonic of a command (R46). -/
def Instr.mnemonic : Instr → String
  | .csumReset => "CSUM.RESET"
  | .csumUpdate _ => "CSUM.UPDATE"
  | .csumValue => "CSUM.VALUE"
  | .txSendByte _ => "TX.SENDBYTE"
  | .fcStatus => "FC.STATUS"

/-- The instruction of a table word: `nbits` bits of `w`, every bit above them zero. A command is one 16-bit word
presented whole (R32, R53), so a value that does not fit in 16 bits is no command. -/
def decodeTableWord (nbits w : Nat) : Option Instr :=
  let v := w % 2 ^ nbits
  if v < 65536 then (decode (BitVec.ofNat 16 v)).toOption else none

end Sys2Proof
end

