-- ==== Sys2Proof/Machine/State.lean ====
section
/-! DEFINITION. The state of the block, its boundary, its master and its schedule, as plain data (10_state.md R25 and the
rules it names), the reasons a step stops, and the state right after a hardware reset (R28). -/

namespace Sys2Proof.Machine

/-- Progress of a TX.SENDBYTE (R17). -/
inductive Phase
  /-- no TX.SENDBYTE in progress -/
  | idle
  /-- accepted, byte not yet written -/
  | wait
  /-- byte written, guard delay running -/
  | guard
deriving DecidableEq, Repr

/-- One line of the master's program (R8): a command word, the master's own accesses to its byte memory, or a
pseudo-instruction (R56). -/
inductive MasterOp
  /-- present this command word on the port (R45) -/
  | present (w : Word)
  /-- `CSUM.UPDATE MemRead(a, 1)` (R102) -/
  | updateFrom (a : Nat)
  /-- `TX.SENDBYTE MemRead(a, 1)` (R104) -/
  | sendFrom (a : Nat)
  /-- `MemWrite(a, 1, v)` (R7, R8) -/
  | store (a : Nat) (v : Byte)
  /-- `MemWrite(a, 1, rsp)`, with the master's own copy of the last response (R24, R102) -/
  | storeRsp (a : Nat)
  /-- the master re-arms the Response Matcher; the block sees nothing (R106) -/
  | rearm
  /-- the settle delay before the payload stream; the block sees nothing (R105) -/
  | settleDelay
  /-- `TX.SENDSTRING a` (R56, R91) -/
  | sendString (a : Nat)
  /-- `FRAME.CSUM a` (R56, R102) -/
  | frameCsum (a : Nat)
  /-- `FRAME.SEND a` (R56, R104) -/
  | frameSend (a : Nat)
deriving DecidableEq, Repr

/-- One turn of one agent (R22, R27). -/
inductive Turn
  /-- the master takes its next action, while the far end moves the level through `moves` inside this step (R18) -/
  | master (moves : List Bool)
  /-- the block steps (R96), while the far end moves the level through `moves` inside this step (R18) -/
  | block (moves : List Bool)
  /-- one cycle of a running guard delay passes (R131) -/
  | guardTick
  /-- `FcDrive(v)`: the far end sets the level between two steps (R22) -/
  | fcDrive (v : Bool)
  /-- `UartDrain`: the UART moves the byte on (R22) -/
  | uartDrain
  /-- a cycle with `rst = 1` (R140) -/
  | reset
deriving DecidableEq, Repr

/-- The master's byte memory (R30): strictly rising addresses; an unlisted address holds no value (log 7). -/
abbrev Memory := List Host.Cell

/-- The whole state. Fields of R25 keep its names; `busy` and `cmd_ready` are computed from `phase` (R23, R25). -/
structure State where
  /-- `ACC` (R11) -/
  acc : Byte
  /-- a CSUM.RESET has been executed since the last hardware reset: R25's `acc` is not `none` (R11) -/
  accWritten : Bool
  /-- `phase` (R17) -/
  phase : Phase
  /-- `pend`, read only in WAIT (R17) -/
  pend : Byte
  /-- `guard_cnt` (R17, R131) -/
  guardCnt : Nat
  /-- `tx_empty`: the transmit buffer can take a byte (R20) -/
  txEmpty : Bool
  /-- `fc_nrdy`: the far end signals "not ready" (R18) -/
  fcNrdy : Bool
  /-- no sample has been taken since the last hardware reset: the synchroniser holds no defined value (R19). Inside a
  step in which the level moves it is up too, and no longer than that step (R18, R86, U4). -/
  fcUnsettled : Bool
  /-- `tx_wr`: the last step wrote `txData` to the UART (R20) -/
  txWr : Bool
  /-- `tx_data`, valid only while `txWr` (R20) -/
  txData : Byte
  /-- `done`: the last step completed a command (R45) -/
  done : Bool
  /-- `rsp`: the response presented with `done`, none where the command has no response value (R24, R50) -/
  rsp : Option Byte
  /-- `wire`: the bytes written to the UART since the last hardware reset, oldest first (R21) -/
  wire : List Byte
  /-- the wires of the reset epochs before this one, oldest first: the history of R142 -/
  pastWires : List (List Byte)
  /-- the responses since the last hardware reset, in command order (R8) -/
  responses : List Byte
  /-- the master's program, from its beginning (R8) -/
  program : List MasterOp
  /-- what the master has not yet done of it -/
  todo : List MasterOp
  /-- the master's position: how many commands are `done` since the last hardware reset (R14) -/
  pos : Nat
  /-- the master's byte memory (R30) -/
  mem : Memory
  /-- the schedule: whose turn comes next, oldest first (R22, R27; log 8) -/
  turns : List Turn
  /-- the model's own counter that the free values are applied to (log 4) -/
  draws : Nat
deriving DecidableEq, Repr

/-- Why the machine stops. The block itself has no exception (R115). -/
inductive Fault
  /-- Raised by the MASTER's `MemRead` of a byte of its own memory that nothing has written. Safe: the model stops where
  a platform would read something (log 7). -/
  | unwrittenByte (a : Nat)
deriving DecidableEq, Repr

/-- Why a run is refused. -/
inductive Refusal
  /-- Raised by exec for a command without a meaning in the model (there is none). Safe. -/
  | notModelled (mnemonic : String)
  /-- Raised by the step in which the master presents a reserved word: "a model must refuse a program that contains one"
  (R51, U1). Safe: nothing is proved of such a run. -/
  | reservedWord (w : Word) (why : Reserved)
deriving DecidableEq, Repr

/-- The machine right after a hardware reset (R28), with no program loaded. The values R28 calls unspecified: `acc`,
`txEmpty` and `fcNrdy` are free values (logs 1 and 3); `pend` and `txData`, which nothing reads before they are written,
are zero (log 2, DESIGN CHOICE, unsafe). -/
def State.reset : State where
  acc := Config.accAtReset 0
  accWritten := false
  phase := .idle
  pend := 0
  guardCnt := 0
  txEmpty := Config.txEmptyAtReset 0
  fcNrdy := Config.fcNrdyAtReset
  fcUnsettled := true
  txWr := false
  txData := 0
  done := false
  rsp := none
  wire := []
  pastWires := []
  responses := []
  program := []
  todo := []
  pos := 0
  mem := []
  turns := []
  draws := 0

end Sys2Proof.Machine
end

