-- ==== Sys2Proof/Machine/Ops.lean ====
section
/-! DEFINITION. The shared operations: the master's byte memory, the command port, the write to the UART, and the hardware
reset, which is the only trap-like event (60_exceptions.md R115, R120): there is no exception to take and none to return
from (R123). -/

namespace Sys2Proof.Machine

/-! ### The master's byte memory (R30, R33) -/

/-- `MemRead(a, 1)` of R7: no value where nothing has been written. -/
def Memory.read : Memory → Nat → Option Byte
  | [], _ => none
  | (b, v) :: rest, a => if a = b then some v else Memory.read rest a

/-- `MemWrite(a, 1, v)` of R7, keeping the addresses strictly rising. -/
def Memory.write : Memory → Nat → Byte → Memory
  | [], a, v => [(a, v)]
  | (b, w) :: rest, a, v =>
    if a < b then (a, v) :: (b, w) :: rest
    else if a = b then (a, v) :: rest
    else (b, w) :: Memory.write rest a v

/-- Every listed address is above `a`. -/
def Memory.above (a : Nat) (m : Memory) : Bool := m.all fun c => decide (a < c.1)

/-- The canonical form: strictly rising addresses. An unlisted address has no value, so no entry can equal it. -/
def Memory.wf : Memory → Bool
  | [] => true
  | (a, _) :: rest => Memory.above a rest && Memory.wf rest

/-! ### The command port (R23, R24, R45) -/

/-- `busy`: 1 from the acceptance of a command to its `done` (R23). -/
def State.busy (s : State) : Bool := s.phase ≠ .idle

/-- `cmd_ready`: the port can accept a command, `not busy` (R45). -/
def State.cmdReady (s : State) : Bool := !s.busy

/-- A command is accepted only where `cmd_ready = 1` (R45); otherwise the port takes nothing and the master goes on
holding the word (R23, R82). -/
def whenReady (s : State) (k : State → State) : Host.Outcome State Fault Refusal :=
  if s.cmdReady then .next (k s) else .next s

/-- `done`, with the response if the command has one (R24, R50): the master's position advances by one (R14). -/
def complete (r : Option Byte) (s : State) : State :=
  { s with done := true, rsp := r, responses := s.responses ++ r.toList, pos := s.pos + 1 }

/-- The strobes `done` and `tx_wr` last one step and `rsp` is not held after its `done` (R20, R24, R45). -/
def strobesLow (s : State) : State :=
  { s with done := false, rsp := none, txWr := false }

/-! ### The UART side (R20) -/

/-- `UartWrite(b)`: hand `b` to the transmit buffer, unchanged (R20, R21). -/
def uartWrite (b : Byte) (s : State) : State :=
  { s with wire := s.wire ++ [b], txEmpty := false, txWr := true, txData := b }

/-! ### Hardware reset (R28, R120, R140, R142, R143) -/

/-- A cycle with `rst = 1`. Whatever was in progress is abandoned and nothing records it (R120); the wire is cleared and
kept as history (R142); `fc_nrdy` belongs to the far end and stays (R143); the master starts again from the beginning of
its program (R123) and its memory is left as it is (log 7). The unspecified values are drawn anew (logs 1 and 3). -/
def restart (s : State) : State :=
  { s with
    acc := Config.accAtReset (s.draws + 1)
    accWritten := false
    phase := .idle
    pend := 0
    guardCnt := 0
    txEmpty := Config.txEmptyAtReset (s.draws + 1)
    fcUnsettled := true
    txWr := false
    txData := 0
    done := false
    rsp := none
    wire := []
    pastWires := s.pastWires ++ [s.wire]
    responses := []
    todo := s.program
    pos := 0
    draws := s.draws + 1 }

end Sys2Proof.Machine
end

