-- ==== Sys2Proof/Machine/Flags.lean ====
section
/-! DEFINITION. The block has no flags (10_state.md R15). Its two status levels: how `fc_nrdy` is sampled (R18, R19, R83),
the gate's condition, and the status byte of FC.STATUS (R50, R90). -/

namespace Sys2Proof.Machine

/-- `sample(fc_nrdy)`: the level, or a free draw where the level does not determine it (R18, R19, U4; log 4). -/
def State.sampleFc (s : State) : Bool :=
  bif s.fcUnsettled then Config.freeSample s.draws else s.fcNrdy

/-- After a sample: the next one sees a settled level and the draw is used up. Nothing is remembered of what was
sampled (R83, R86). -/
def afterSample (s : State) : State :=
  { s with fcUnsettled := false, draws := s.draws + 1 }

/-- The gate's condition, "`sample(fc_nrdy) == 0` and `tx_empty == 1` in the same step" (R83). -/
def State.gateOpen (s : State) : Bool := !s.sampleFc && s.txEmpty

/-- The FC.STATUS response: bit 1 is `tx_empty`, bit 0 the sample, bits 7 to 2 zero (R50, R90). -/
def statusByte (txEmpty fcNrdy : Bool) : Byte :=
  (0 : BitVec 6) ++ BitVec.ofBool txEmpty ++ BitVec.ofBool fcNrdy

end Sys2Proof.Machine
end

