-- ==== Sys2Proof/Machine/Operands.lean ====
section
/-! DEFINITION. The one operand form and the master's reads that supply it (30_encoding.md R49, 20_memory.md R42). -/

namespace Sys2Proof.Machine

/-- The operand `imm8`: an unsigned byte used as it stands, neither extended, scaled nor shifted (R49). -/
def operandByte (imm8 : Byte) : Byte := imm8

/-- The master's own copy of the last response (R24); before any response its value is open (log 5). -/
def State.lastResponse (s : State) : Byte := s.responses.getLast?.getD Config.rspAtReset

end Sys2Proof.Machine
end

