-- ==== Sys2Proof/Machine/Checksum.lean ====
section
/-! DEFINITION. The checksum engine CE (41_checksum.md): the fold constants, `fold`, and the meanings of CSUM.RESET,
CSUM.UPDATE and CSUM.VALUE. -/

namespace Sys2Proof.Machine

/-- `T[0..7]` (R12). -/
def foldConst : Fin 8 → Byte
  | 0 => 0x5e
  | 1 => 0xbc
  | 2 => 0x61
  | 3 => 0xc2
  | 4 => 0x9d
  | 5 => 0x23
  | 6 => 0x46
  | 7 => 0x8c

/-- The contribution of bit `i`: `v[i] ? T[i] : 0x00` (R61). -/
def foldTerm (v : Byte) (i : Fin 8) : Byte :=
  if v.getLsbD i then foldConst i else 0

/-- `fold(v)` (R61): the XOR of those `T[i]` whose `i` is a set bit of `v`. -/
def fold (v : Byte) : Byte :=
  foldTerm v 0 ^^^ foldTerm v 1 ^^^ foldTerm v 2 ^^^ foldTerm v 3 ^^^
  foldTerm v 4 ^^^ foldTerm v 5 ^^^ foldTerm v 6 ^^^ foldTerm v 7

/-- The accumulator after one update: `fold(ACC ^ b)` (R63). -/
def updated (acc b : Byte) : Byte := fold (acc ^^^ b)

/-- The checksum of a byte stream from `ACC = 0x00` (R60, R71). -/
def checksum (bs : List Byte) : Byte := bs.foldl updated 0

/-- `ACC <- 0x00`, and the accumulator is written from here on (R11, R62). -/
def zeroAcc (s : State) : State := { s with acc := 0, accWritten := true }

/-- `ACC <- v` by an update; an accumulator unwritten since reset stays so (R11; log 1). -/
def setAcc (v : Byte) (s : State) : State := { s with acc := v }

/-- `CSUM.RESET` (R62): no response. -/
def execCsumReset (s : State) : Host.Outcome State Fault Refusal :=
  whenReady s fun s => complete none (zeroAcc s)

/-- `CSUM.UPDATE b` (R63): the response is the new accumulator. On an accumulator unwritten since reset it computes from
whatever `ACC` holds (R116; log 1). -/
def execCsumUpdate (b : Byte) (s : State) : Host.Outcome State Fault Refusal :=
  whenReady s fun s =>
    complete (some (updated s.acc (operandByte b))) (setAcc (updated s.acc (operandByte b)) s)

/-- `CSUM.VALUE` (R64): the response is the accumulator as it stands. -/
def execCsumValue (s : State) : Host.Outcome State Fault Refusal :=
  whenReady s fun s => complete (some s.acc) s

end Sys2Proof.Machine
end

