-- ==== Sys2Proof/Machine/Gate.lean ====
section
/-! DEFINITION. The flow-control gate FCG (42_serial_transport.md): the accepting step of TX.SENDBYTE, the block's own steps
in WAIT and GUARD (the transition table R96), and FC.STATUS. -/

namespace Sys2Proof.Machine

/-- Step 1 of a send: `pend <- b`, `phase <- WAIT` (R81). -/
def acceptSend (b : Byte) (s : State) : State := { s with phase := .wait, pend := b }

/-- `TX.SENDBYTE b`, the step that accepts it (R81 step 1, R96). The command completes in
the block's later steps. -/
def execTxSendByte (b : Byte) (s : State) : Host.Outcome State Fault Refusal :=
  whenReady s (acceptSend (operandByte b))

/-- `FC.STATUS` (R90): one sample, no waiting, no side effect. -/
def execFcStatus (s : State) : Host.Outcome State Fault Refusal :=
  whenReady s fun s => complete (some (statusByte s.txEmpty s.sampleFc)) (afterSample s)

/-- The write step: `UartWrite(pend)`, `phase <- GUARD`, and the guard counter loaded (R81 step 2, R96, R131). -/
def writePending (s : State) : State :=
  uartWrite s.pend { s with phase := .guard, guardCnt := Config.guardCycles }

/-- A block step in WAIT (R83, R96): a fresh sample; the write in the same step if the gate is open (R40), else the
command stays where it is, without limit (R82). -/
def waitStep (s : State) : State :=
  if s.gateOpen then writePending (afterSample s) else afterSample s

/-- A block step in GUARD: what is left of the guard delay passes and the command is done (R84, R96; log 9). The levels
are not looked at. -/
def guardStep (s : State) : State :=
  complete none { s with phase := .idle, guardCnt := 0 }

/-- One step of the block (R96). In IDLE it has none: the cycle changes nothing. -/
def blockStep (s : State) : State :=
  match s.phase with
  | .idle => s
  | .wait => waitStep s
  | .guard => guardStep s

/-- One cycle of a running guard delay (R131): timing only, nothing depends on it (R17, R150). -/
def guardTick (s : State) : State :=
  { s with guardCnt := s.guardCnt - 1 }

end Sys2Proof.Machine
end

