-- ==== Sys2Proof/Machine/Dispatch.lean ====
section
/-! DEFINITION. One arm per command (30_encoding.md R46). -/

namespace Sys2Proof.Machine

def exec (i : Instr) (s : State) : Host.Outcome State Fault Refusal :=
  match i with
  | .csumReset => Sys2Proof.Machine.execCsumReset s
  | .csumUpdate b => Sys2Proof.Machine.execCsumUpdate b s
  | .csumValue => Sys2Proof.Machine.execCsumValue s
  | .txSendByte b => Sys2Proof.Machine.execTxSendByte b s
  | .fcStatus => Sys2Proof.Machine.execFcStatus s

end Sys2Proof.Machine
end

