-- ==== Sys2Proof/Machine/Environment.lean ====
section
/-! DEFINITION. The environment's steps (10_state.md R18, R22). -/

namespace Sys2Proof.Machine

/-- `FcDrive(v)` between two steps (R22): a later sample sees the new level. It does not settle a synchroniser that a
reset has left undefined (R19). -/
def fcDrive (v : Bool) (s : State) : State := { s with fcNrdy := v }

/-- The beginning of a step in which the level moves through `moves`: "when the level changes during the step either the
old or the new value may be seen" (R18, R119, S12). Where it takes no other level there is nothing to draw. -/
def levelsMove (moves : List Bool) (s : State) : State :=
  { s with fcUnsettled := s.fcUnsettled || moves.any (· != s.fcNrdy) }

/-- The end of that step: the level is the last it took, and nothing is remembered of the movement, whether or not the
step sampled (R80, R86). `wasUnsettled` is the mark of R19 as the step found it. -/
def levelsMoved (moves : List Bool) (wasUnsettled : Bool) (s : State) : State :=
  { s with fcNrdy := moves.getLastD s.fcNrdy, fcUnsettled := wasUnsettled && s.fcUnsettled }

/-- `UartDrain` (R22): `tx_empty <- 1`; where it is already 1 the step is not enabled and nothing changes. -/
def uartDrain (s : State) : State := { s with txEmpty := true }

/-- The logical level of a pin level, under the open parameter FC_PIN_ACTIVE_LEVEL (R18, D8). -/
def fcNrdyOfPin (l : Config.PinLevel) : Bool := l = Config.pinActiveLevel

end Sys2Proof.Machine
end

