-- ==== Sys2Proof/Machine/Frame.lean ====
section
/-! DEFINITION. The report frame (43_frame_sequences.md R100) and the expansions of the pseudo-instructions FRAME.CSUM,
FRAME.SEND and of a whole report (R102, R104, R105). -/

namespace Sys2Proof.Machine

/-- `u[15:8]`, sent first (R31). -/
def uptimeHi (u : Word) : Byte := u.extractLsb' 8 8

/-- `u[7:0]` (R31). -/
def uptimeLo (u : Word) : Byte := u.extractLsb' 0 8

/-- Bytes 0 to 7 of a frame, in wire order (R31, R100). -/
def frameData (uptime : Word) (speed dir0 dir1 dir2 dir3 dir4 : Byte) : List Byte :=
  [uptimeHi uptime, uptimeLo uptime, speed, dir0, dir1, dir2, dir3, dir4]

/-- A frame: its data bytes and their checksum (R100, R102). -/
def withChecksum (data : List Byte) : List Byte := data ++ [checksum data]

/-- The expansion of `FRAME.CSUM a` (R102). -/
def frameCsumOps (a : Nat) : List MasterOp :=
  [.present (encode .csumReset)] ++ (List.range 8).map (fun k => .updateFrom (a + k)) ++
  [.present (encode .csumValue), .storeRsp (a + 8)]

/-- The expansion of `FRAME.SEND a`, with the re-arm before the checksum byte (R104, R106). -/
def frameSendOps (a : Nat) : List MasterOp :=
  (List.range 8).map (fun k => .sendFrom (a + k)) ++ [.rearm, .sendFrom (a + 8)]

/-- One report through the gate (R105): nine carriage returns, the announcing command at `cmd`, the settle delay, the
frame at `a`. -/
def reportOps (cmd a : Nat) : List MasterOp :=
  List.replicate 9 (.present (encode (.txSendByte 0x0d))) ++ [.sendString cmd, .settleDelay, .frameSend a]

end Sys2Proof.Machine
end

