-- ==== Sys2Proof/Machine/Master.lean ====
section
/-! DEFINITION. The master's side of a turn (00_scope.md R8, 30_encoding.md R56): what it presents on the command port next,
or what it does of its own. The block sees only the command words. -/

namespace Sys2Proof.Machine

/-- What the master does with its turn. -/
inductive MasterAct
  /-- its program is over, or it issues nothing (R9, R52) -/
  | rest
  /-- it presents a command word; what is left to do once the word is accepted -/
  | present (w : Word) (todo : List MasterOp)
  /-- an action of its own, which reaches the block with nothing: what is left to do, and its memory -/
  | own (todo : List MasterOp) (mem : Memory)
  /-- it read a byte of its own memory that nothing has written (log 7) -/
  | stop (r : Fault)
deriving DecidableEq, Repr

/-- `MemRead(a, 1)` and then `k` (R7, R30). -/
def withByte (m : Memory) (a : Nat) (k : Byte → MasterAct) : MasterAct :=
  match m.read a with
  | some v => k v
  | none => .stop (.unwrittenByte a)

/-- What a master does that has `todo` left to do, the memory `m` and `last` as its copy of the last response. A
pseudo-instruction first unfolds into its expansion; TX.SENDSTRING reads each byte at the moment its command is issued and
stops at the first `0x00`, which is not sent (R42, R56, R91). -/
def actOf (m : Memory) (last : Byte) : List MasterOp → MasterAct
  | [] => .rest
  | .present w :: rest => .present w rest
  | .updateFrom a :: rest => withByte m a fun v => .present (encode (.csumUpdate v)) rest
  | .sendFrom a :: rest => withByte m a fun v => .present (encode (.txSendByte v)) rest
  | .store a v :: rest => .own rest (m.write a v)
  | .storeRsp a :: rest => .own rest (m.write a last)
  | .rearm :: rest => .own rest m
  | .settleDelay :: rest => .own rest m
  | .sendString a :: rest => withByte m a fun c =>
      if c = 0 then .own rest m else .present (encode (.txSendByte c)) (.sendString (a + 1) :: rest)
  | .frameCsum a :: rest => .own (frameCsumOps a ++ rest) m
  | .frameSend a :: rest => .own (frameSendOps a ++ rest) m

/-- The master's next action. -/
def State.masterAct (s : State) : MasterAct := actOf s.mem s.lastResponse s.todo

/-- The master has come this far in its program. -/
def setTodo (todo : List MasterOp) (s : State) : State := { s with todo := todo }

/-- The master has acted on its own: the block's state is as it was. -/
def actOwn (todo : List MasterOp) (m : Memory) (s : State) : State := { s with todo := todo, mem := m }

/-- Load a program from outside: the master is to run it from its beginning (log 6). -/
def State.load (s : State) (p : List MasterOp) : State := { s with program := p, todo := p }

/-- Make `w` the command the very next step presents: the port ready, the master's turn, the word first (log 6). -/
def presentNext (w : Word) (s : State) : State :=
  { s with phase := .idle, turns := .master [] :: s.turns, todo := .present w :: s.todo }

end Sys2Proof.Machine
end

