-- ==== Sys2Proof/Machine/Turn.lean ====
section
/-! DEFINITION. One turn of one agent (10_state.md R22, R27, 42_serial_transport.md R96). -/

namespace Sys2Proof.Machine

/-- The master presents `w`: it is decoded and executed, or the run is refused (R45, R51, R57). -/
def presentWord (w : Word) (s : State) : Host.Outcome State Fault Refusal :=
  match decode w with
  | .ok i => exec i s
  | .error why => .refused (.reservedWord w why)

/-- The master's turn. In WAIT and GUARD it has no step: `cmd_ready = 0` (R96). -/
def masterTurn (s : State) : Host.Outcome State Fault Refusal :=
  if s.cmdReady then
    match s.masterAct with
    | .rest => .next s
    | .present w todo => presentWord w (setTodo todo s)
    | .own todo m => .next (actOwn todo m s)
    | .stop r => .fault r
  else .next s

/-- `f` on the next state, if there is one. -/
def onNext (f : State → State) (o : Host.Outcome State Fault Refusal) : Host.Outcome State Fault Refusal :=
  match o with
  | .next t => .next (f t)
  | .fault r => .fault r
  | .refused r => .refused r

/-- One turn. The strobes of the step before are over (R20, R45). In a turn of the master or the block the far end may
move the level, which ends with the step. -/
def takeTurn (t : Turn) (s : State) : Host.Outcome State Fault Refusal :=
  match t with
  | .master vs => onNext (levelsMoved vs s.fcUnsettled) (masterTurn (levelsMove vs (strobesLow s)))
  | .block vs => .next (levelsMoved vs s.fcUnsettled (blockStep (levelsMove vs (strobesLow s))))
  | .guardTick => .next (guardTick (strobesLow s))
  | .fcDrive v => .next (fcDrive v (strobesLow s))
  | .uartDrain => .next (uartDrain (strobesLow s))
  | .reset => .next (restart s)

/-- Whose turn it is when the schedule lists none (log 8): a command in progress goes on; the UART drains where a byte in
its buffer is all that holds things up, which is its weak fairness (R22); otherwise the master acts. -/
def defaultTurn (s : State) : Turn :=
  match s.phase with
  | .idle => if s.todo = [] ∧ s.txEmpty = false then .uartDrain else .master []
  | .wait => if s.txEmpty then .block [] else .uartDrain
  | .guard => .block []

/-- Whose turn it is. -/
def State.nextTurn (s : State) : Turn := s.turns.headD (defaultTurn s)

/-- The levels that the far end takes in a turn, in order. -/
def Turn.drives : Turn → List Bool
  | .master vs | .block vs => vs
  | .fcDrive v => [v]
  | .guardTick | .uartDrain | .reset => []

/-- It is the master's turn. -/
def Turn.isMaster : Turn → Bool
  | .master _ => true
  | .block _ | .guardTick | .fcDrive _ | .uartDrain | .reset => false

/-- It is the block's turn. -/
def Turn.isBlock : Turn → Bool
  | .block _ => true
  | .master _ | .guardTick | .fcDrive _ | .uartDrain | .reset => false

/-- What the sample of the coming step sees, if it takes one (R18). -/
def State.seenFc (s : State) : Bool := (levelsMove s.nextTurn.drives s).sampleFc

/-- The state with the coming turn taken off the schedule. -/
def State.dropTurn (s : State) : State := { s with turns := s.turns.tail }

end Sys2Proof.Machine
end

