-- ==== Sys2Proof/Machine/Step.lean ====
section
/-! DEFINITION. One step of the machine: one turn of the agent whose turn it is. -/

namespace Sys2Proof.Machine

/-- One step. -/
def step (s : State) : Host.Outcome State Fault Refusal := takeTurn s.nextTurn s.dropTurn

/-- `s` with the table word `w` of `nbits` bits as the command that the very next step presents to the block (log 6). -/
def State.withFetchWord (s : State) (nbits w : Nat) : State :=
  presentNext (BitVec.ofNat 16 (w % 2 ^ nbits)) s

end Sys2Proof.Machine
end

