-- ==== Sys2Proof/Safety.lean ====
section
/-! DEFINITION. Runs and what claims about them speak of: the run of a program, an ended run and what is observed of it
(00_scope.md R8), a run without a reset (92, blind spot 3), an accumulator read while unwritten (R11, U2), the record of R25 and its transitions (R22, R62 to R64, R90, R96,
R140), and the invariant of the machine. -/

namespace Sys2Proof.Machine

/-! ### Runs -/

/-- `k` steps, stopping at a fault or a refusal. -/
def run : Nat → State → Host.Outcome State Fault Refusal
  | 0, s => .next s
  | k + 1, s => match step s with
    | .next t => run k t
    | .fault r => .fault r
    | .refused r => .refused r

/-- `t` is reached from `s` in `k` steps. -/
abbrev Reaches (k : Nat) (s t : State) : Prop := run k s = .next t

/-- The master has `done` for its last command and the block is in IDLE: what R8 asks of the last state of an ended run.
A run that gets there is an ended run only if nothing on its way faults or refuses it (`EndedRun`). -/
abbrev State.AtEnd (s : State) : Prop := s.todo = [] ∧ s.phase = .idle

/-- "No reset during the run" (92, blind spot 3): the schedule holds no reset turn. The default schedule holds none. -/
abbrev State.NoReset (s : State) : Prop := Turn.reset ∉ s.turns

/-- The command word that the coming step presents to the block, if it does. -/
def State.presented (s : State) : Option Word :=
  if s.nextTurn.isMaster = true ∧ s.phase = .idle then
    match s.masterAct with
    | .present w _ => some w
    | .rest | .own _ _ | .stop _ => none
  else none

/-- The command that the coming step executes, if it does. -/
def State.executes (s : State) : Option Instr := s.presented.bind fun w => (decode w).toOption

/-- The byte of the TX.SENDBYTE that the coming step accepts, if it does (R81). -/
def State.accepts (s : State) : List Byte :=
  match s.executes with
  | some (.txSendByte b) => [b]
  | _ => []

/-- The bytes accepted by the first `k` steps from `s`, in order. -/
def acceptedIn : Nat → State → List Byte
  | 0, _ => []
  | k + 1, s => s.accepts ++ (match step s with | .next t => acceptedIn k t | _ => [])

/-- The byte accepted and not yet written: `pend`, in WAIT (R17). -/
def State.inFlight (s : State) : List Byte :=
  match s.phase with
  | .wait => [s.pend]
  | .idle | .guard => []

/-- The coming step reads an accumulator that no CSUM.RESET has written since the last hardware reset (R11). The machine
goes on with a free value (log 1); the run is faulted (R8, U2). -/
def State.readsUnwrittenAcc (s : State) : Bool :=
  match s.executes with
  | some (.csumUpdate _) => !s.accWritten
  | some .csumValue => !s.accWritten
  | some .csumReset | some (.txSendByte _) | some .fcStatus | none => false

/-- A safe run of `k` steps: no fault, no reserved word, no read of an unwritten accumulator. -/
def SafeRun : Nat → State → Prop
  | 0, _ => True
  | k + 1, s => s.readsUnwrittenAcc = false ∧ ∃ t, step s = .next t ∧ SafeRun k t

/-- The start of a run (R8): just after a hardware reset, with the program `p` loaded, the master's memory `m` and the
schedule `ts`. -/
def State.start (p : List MasterOp) (m : Memory) (ts : List Turn) : State :=
  { State.reset.load p with mem := m, turns := ts }

/-- An ended run of `k` steps from `s` to `t` (R8): not faulted, not refused, and `t` is at the end of the program. -/
def EndedRun (k : Nat) (s t : State) : Prop := SafeRun k s ∧ Reaches k s t ∧ t.AtEnd

/-! ### The bit-serial form of R68 -/

/-- One step of the right-shifting feedback register with feedback constant `0x8c` (R68). -/
def serialStep (c : Byte) : Byte := (c >>> 1) ^^^ (if c.getLsbD 0 then 0x8c else 0)

/-! ### The record of R25 and its transitions -/

/-- The state record as R25 writes it. -/
structure Wscf where
  acc : Option Byte
  phase : Phase
  pend : Byte
  txEmpty : Bool
  fcNrdy : Bool
  wire : List Byte
deriving DecidableEq, Repr

/-- What the machine's state is as a record of R25. -/
def State.view (s : State) : Wscf where
  acc := bif s.accWritten then some s.acc else none
  phase := s.phase
  pend := s.pend
  txEmpty := s.txEmpty
  fcNrdy := s.fcNrdy
  wire := s.wire

/-! ### What is observed of a run (R8) -/

/-- What is observed of an ended run: "the list of responses in command order, `wire`, the final `ACC` and the master's
memory" (R8). -/
structure Observation where
  responses : List Byte
  wire : List Byte
  acc : Option Byte
  mem : Memory
deriving DecidableEq, Repr

/-- What is observed in `s`, if the run ends there. -/
def State.observed (s : State) : Observation where
  responses := s.responses
  wire := s.wire
  acc := s.view.acc
  mem := s.mem

/-- What R8 says of a run after so many steps. -/
inductive Verdict
  /-- ended, with this observation -/
  | ended (o : Observation)
  /-- not ended; a send that waits for ever stays here -/
  | going
  /-- `ACC` was read unwritten, or the master read a byte of its memory that nothing has written -/
  | faulted
  /-- a reserved word was reached -/
  | refused
deriving DecidableEq, Repr

/-- The verdict on the run of `k` steps from `s`. -/
def judge : Nat → State → Verdict
  | 0, s => if s.AtEnd then .ended s.observed else .going
  | k + 1, s =>
    if s.readsUnwrittenAcc then .faulted
    else match step s with
      | .next t => judge k t
      | .fault _ => .faulted
      | .refused _ => .refused

/-! ### The transitions of the record -/

/-- What the far end's moves inside a step do to the record: the level is the last it took. -/
def Wscf.moved (vs : List Bool) (v : Wscf) : Wscf := { v with fcNrdy := vs.getLastD v.fcNrdy }

/-- The transitions of R96, with the commands of CE (R62 to R64), the environment (R22) and reset (R140, R142), for a step
in which `turn` moved, `cmd` was executed and the sample was `lvl`: "a row not listed does not exist". In a turn of the
master or the block the far end's `FcDrive` steps inside it come on top (`moved`). -/
inductive WscfStep : Turn → Option Instr → Bool → Wscf → Wscf → Prop
  /-- the master executes no command: its own action, nothing to do, or `cmd_ready = 0` -/
  | noCommand (vs : List Bool) (lvl : Bool) (v : Wscf) : WscfStep (.master vs) none lvl v (v.moved vs)
  /-- IDLE, CSUM.RESET (R62) -/
  | csumReset (vs : List Bool) (lvl : Bool) (v : Wscf) : v.phase = .idle →
      WscfStep (.master vs) (some .csumReset) lvl v ({ v with acc := some 0 }.moved vs)
  /-- IDLE, CSUM.UPDATE (R63); an unwritten accumulator stays unwritten (log 1) -/
  | csumUpdate (vs : List Bool) (lvl : Bool) (v : Wscf) (b : Byte) : v.phase = .idle →
      WscfStep (.master vs) (some (.csumUpdate b)) lvl v ({ v with acc := v.acc.map (updated · b) }.moved vs)
  /-- IDLE, CSUM.VALUE (R64) -/
  | csumValue (vs : List Bool) (lvl : Bool) (v : Wscf) : v.phase = .idle →
      WscfStep (.master vs) (some .csumValue) lvl v (v.moved vs)
  /-- IDLE, FC.STATUS (R90) -/
  | fcStatus (vs : List Bool) (lvl : Bool) (v : Wscf) : v.phase = .idle →
      WscfStep (.master vs) (some .fcStatus) lvl v (v.moved vs)
  /-- IDLE, TX.SENDBYTE b -/
  | sendByte (vs : List Bool) (lvl : Bool) (v : Wscf) (b : Byte) : v.phase = .idle →
      WscfStep (.master vs) (some (.txSendByte b)) lvl v ({ v with phase := .wait, pend := b }.moved vs)
  /-- IDLE: the block has no step of its own -/
  | idle (vs : List Bool) (lvl : Bool) (v : Wscf) : v.phase = .idle → WscfStep (.block vs) none lvl v (v.moved vs)
  /-- WAIT, `s == 0` and `e == 1` -/
  | write (vs : List Bool) (v : Wscf) : v.phase = .wait → v.txEmpty = true →
      WscfStep (.block vs) none false v
        ({ v with phase := .guard, wire := v.wire ++ [v.pend], txEmpty := false }.moved vs)
  /-- WAIT, `s == 1` or `e == 0` -/
  | hold (vs : List Bool) (lvl : Bool) (v : Wscf) : v.phase = .wait → lvl = true ∨ v.txEmpty = false →
      WscfStep (.block vs) none lvl v (v.moved vs)
  /-- GUARD, the guard delay is over -/
  | guardOver (vs : List Bool) (lvl : Bool) (v : Wscf) : v.phase = .guard →
      WscfStep (.block vs) none lvl v ({ v with phase := .idle }.moved vs)
  /-- a cycle of the guard delay: "no state of the model changes" (R84) -/
  | guardTick (lvl : Bool) (v : Wscf) : WscfStep .guardTick none lvl v v
  /-- `FcDrive(x)` between two steps -/
  | fcDrive (lvl x : Bool) (v : Wscf) : WscfStep (.fcDrive x) none lvl v { v with fcNrdy := x }
  /-- `UartDrain` -/
  | uartDrain (lvl : Bool) (v : Wscf) : v.txEmpty = false → WscfStep .uartDrain none lvl v { v with txEmpty := true }
  /-- `UartDrain` is not enabled -/
  | noDrain (lvl : Bool) (v : Wscf) : v.txEmpty = true → WscfStep .uartDrain none lvl v v
  /-- `rst`; `pend` and `tx_empty` are unspecified after it (R28) -/
  | reset (lvl : Bool) (v : Wscf) (p : Byte) (e : Bool) :
      WscfStep .reset none lvl v { acc := none, phase := .idle, pend := p, txEmpty := e, fcNrdy := v.fcNrdy, wire := [] }

/-- Does the coming step give `done` (R96): a command other than TX.SENDBYTE is executed, or a guard delay is over. -/
def State.completes (s : State) : Bool :=
  match s.executes with
  | some (.txSendByte _) => false
  | some .csumReset | some (.csumUpdate _) | some .csumValue | some .fcStatus => true
  | none => s.nextTurn.isBlock && s.phase = .guard

/-- The response that the coming step presents (R50). -/
def State.response (s : State) : Option Byte :=
  match s.executes with
  | some (.csumUpdate b) => some (updated s.acc b)
  | some .csumValue => some s.acc
  | some .fcStatus => some (statusByte s.txEmpty s.seenFc)
  | some .csumReset | some (.txSendByte _) | none => none

/-! ### The invariant -/

/-- What every state of a run satisfies: the master's memory is canonical; `guard_cnt` is 0 outside GUARD and at most
GUARD_CYCLES in it (R17, R131); `tx_wr` is up only in the step that wrote the last byte of `wire` (R20); `done` is up
only in IDLE (R23); a response is presented only with `done` and is the last of the responses (R24); no command has two
responses (R50); a guard delay follows a write (R84). -/
structure State.Inv (s : State) : Prop where
  memCanonical : s.mem.wf = true
  guardCntOff : s.phase ≠ .guard → s.guardCnt = 0
  guardCntLe : s.guardCnt ≤ Config.guardCycles
  writeStrobe : s.txWr = true → s.phase = .guard ∧ s.txEmpty = false ∧ s.wire.getLast? = some s.txData
  doneIdle : s.done = true → s.phase = .idle
  rspWithDone : ∀ r, s.rsp = some r → s.done = true ∧ s.responses.getLast? = some r
  responsesLePos : s.responses.length ≤ s.pos
  guardWrote : s.phase = .guard → s.wire.getLast? = some s.pend

end Sys2Proof.Machine
end

