-- ==== Sys2Proof/Certificates/Slice0/Obligations.lean ====
section
/-! DEFINITION. The statements for the provers. "R<n>" is a rule of spec/; "log <n>" is notes/assumptions/<n>.md. -/

open Sys2Proof Sys2Proof.Machine

/-! ### Encoding -/

/-- R57: the encoder's words, and encoder and decoder are inverse to each other, so every other word is reserved. -/
def Obligations.DecodeEncodeRoundTrip : Prop :=
  encode .csumReset = 0x0100 ∧ (∀ b : Byte, encode (.csumUpdate b) = 0x0200 ||| b.setWidth 16) ∧
  encode .csumValue = 0x0300 ∧ (∀ b : Byte, encode (.txSendByte b) = 0x0400 ||| b.setWidth 16) ∧
  encode .fcStatus = 0x0500 ∧
  (∀ i, decode (encode i) = .ok i) ∧ (∀ w i, decode w = .ok i → encode i = w)

/-- R48: the five rows; a legal word matches exactly the row of its command, a reserved word none; the legal words are
515 in number. -/
def Obligations.OpcodeMapDecodesByMaskAndMatch : Prop :=
  opcodeTable.map (fun r => (r.mnemonic, r.pattern, r.mask)) =
    [("CSUM.RESET", 0x0100, 0xffff), ("CSUM.UPDATE", 0x0200, 0xff00), ("CSUM.VALUE", 0x0300, 0xffff),
     ("TX.SENDBYTE", 0x0400, 0xff00), ("FC.STATUS", 0x0500, 0xffff)] ∧
  (∀ w i, decode w = .ok i → ∀ r ∈ opcodeTable, (r.isRowOf w = true ↔ r.mnemonic = i.mnemonic)) ∧
  (∀ w why, decode w = .error why → ∀ r ∈ opcodeTable, r.isRowOf w = false) ∧
  (∃ ws : List Word, ws.Nodup ∧ ws.length = 515 ∧ ∀ w, w ∈ ws ↔ ∃ i, decode w = .ok i)

/-- R51: the reserved words, in full, and a run that reaches one is refused, whatever the word's reason. -/
def Obligations.ReservedWordsAreRefused : Prop :=
  (∀ w : Word, (∃ why, decode w = .error why) ↔
    w.extractLsb' 12 4 ≠ 0 ∨ w.extractLsb' 8 4 = 0 ∨ 6 ≤ (w.extractLsb' 8 4).toNat ∨
    ((w.extractLsb' 8 4 = 1 ∨ w.extractLsb' 8 4 = 3 ∨ w.extractLsb' 8 4 = 5) ∧ w.extractLsb' 0 8 ≠ 0)) ∧
  (∀ s w why, s.presented = some w → decode w = .error why → step s = .refused (.reservedWord w why))

/-- Words of the table, written out bit by bit (R48), and what they stand for. -/
def Obligations.WordsWrittenOutDecode : Prop :=
  decode 0b0000000100000000 = .ok .csumReset ∧ decode 0b0000001000001001 = .ok (.csumUpdate 0x09) ∧
  decode 0b0000001100000000 = .ok .csumValue ∧ decode 0b0000010001000001 = .ok (.txSendByte 0x41) ∧
  decode 0b0000010100000000 = .ok .fcStatus

/-! ### A step and the command port -/

/-- A step in which the master presents a legal word with the port ready is exec of the command, on the state whose turn
and program line are used up and whose strobes of the step before are over. Where the far end moves the level inside the step,
exec sees the level moving and the step ends with the level at its last place (R18). -/
def Obligations.StepRunsPresentedCommand : Prop :=
  (∀ s w todo i, s.nextTurn = .master [] → s.phase = .idle → s.masterAct = .present w todo → decode w = .ok i →
    step s = exec i (setTodo todo (strobesLow s.dropTurn))) ∧
  (∀ s vs w todo i, s.nextTurn = .master vs → s.phase = .idle → s.masterAct = .present w todo → decode w = .ok i →
    step s = onNext (levelsMoved vs s.fcUnsettled) (exec i (setTodo todo (levelsMove vs (strobesLow s.dropTurn)))))

/-- `withFetchWord` makes the very next step present exactly that command (the model's convention, log 6). -/
def Obligations.FetchWordRunsAsNextCommand : Prop :=
  ∀ s i, step (s.withFetchWord 16 (encode i).toNat) = exec i { strobesLow s with phase := .idle }

/-- R23, R45, R96: in WAIT and GUARD the port takes no command and the master has no step (log 11); the level moves as the
far end has it move. -/
def Obligations.BusyPortTakesNoCommand : Prop :=
  (∀ i s, s.phase ≠ .idle → s.cmdReady = false ∧ exec i s = .next s) ∧
  (∀ s vs, s.phase ≠ .idle → s.nextTurn = .master vs →
    step s = .next { strobesLow s.dropTurn with fcNrdy := vs.getLastD s.fcNrdy })

/-- R115, R116: no command has a failing outcome; a step is refused only at a reserved word and faults only where the
MASTER reads a byte of its own memory that nothing has written (the model's choice, log 7). -/
def Obligations.BlockRaisesNoException : Prop :=
  (∀ i s, ∃ t, exec i s = .next t) ∧
  (∀ s r, step s = .refused r → ∃ w why, s.presented = some w ∧ decode w = .error why ∧ r = .reservedWord w why) ∧
  (∀ s r, step s = .fault r → s.nextTurn.isMaster = true ∧ s.phase = .idle ∧
    ∃ a, r = .unwrittenByte a ∧ s.mem.read a = none)

/-! ### The checksum engine -/

/-- R61: the two forms of `fold`, with the constants of R12 written in. -/
def Obligations.FoldIsTheXorNetwork : Prop :=
  fold 0 = 0 ∧
  ∀ v : Byte,
    fold v = (if v.getLsbD 0 then 0x5e else 0) ^^^ (if v.getLsbD 1 then 0xbc else 0)
      ^^^ (if v.getLsbD 2 then 0x61 else 0) ^^^ (if v.getLsbD 3 then 0xc2 else 0)
      ^^^ (if v.getLsbD 4 then 0x9d else 0) ^^^ (if v.getLsbD 5 then 0x23 else 0)
      ^^^ (if v.getLsbD 6 then 0x46 else 0) ^^^ (if v.getLsbD 7 then 0x8c else 0) ∧
    (fold v).getLsbD 0 = (v.getLsbD 2 ^^ v.getLsbD 4 ^^ v.getLsbD 5) ∧
    (fold v).getLsbD 1 = (v.getLsbD 0 ^^ v.getLsbD 3 ^^ v.getLsbD 5 ^^ v.getLsbD 6) ∧
    (fold v).getLsbD 2 = (v.getLsbD 0 ^^ v.getLsbD 1 ^^ v.getLsbD 4 ^^ v.getLsbD 6 ^^ v.getLsbD 7) ∧
    (fold v).getLsbD 3 = (v.getLsbD 0 ^^ v.getLsbD 1 ^^ v.getLsbD 4 ^^ v.getLsbD 7) ∧
    (fold v).getLsbD 4 = (v.getLsbD 0 ^^ v.getLsbD 1 ^^ v.getLsbD 4) ∧
    (fold v).getLsbD 5 = (v.getLsbD 1 ^^ v.getLsbD 2 ^^ v.getLsbD 5) ∧
    (fold v).getLsbD 6 = (v.getLsbD 0 ^^ v.getLsbD 2 ^^ v.getLsbD 3 ^^ v.getLsbD 6) ∧
    (fold v).getLsbD 7 = (v.getLsbD 1 ^^ v.getLsbD 3 ^^ v.getLsbD 4 ^^ v.getLsbD 7)

/-- R66: `fold` is linear over XOR, hence an update is, hence the checksum of the bytewise XOR of two streams of equal
length is the XOR of their checksums. -/
def Obligations.FoldIsLinearOverXor : Prop :=
  fold 0 = 0 ∧ (∀ a b : Byte, fold (a ^^^ b) = fold a ^^^ fold b) ∧
  (∀ acc b : Byte, updated acc b = fold acc ^^^ fold b) ∧
  (∀ xs ys : List Byte, xs.length = ys.length →
    checksum (List.zipWith (· ^^^ ·) xs ys) = checksum xs ^^^ checksum ys)

/-- R67: `fold` is a bijection with a linear inverse and these arguments for the single-bit values; an update is a
bijection in either argument; streams of equal length that differ in one position have different checksums; two positions
may collide. -/
def Obligations.FoldIsABijection : Prop :=
  Function.Bijective fold ∧ (∀ v : Byte, fold v = 0 ↔ v = 0) ∧
  (∀ g : Byte → Byte, (∀ v, g (fold v) = v) → ∀ x y, g (x ^^^ y) = g x ^^^ g y) ∧
  [fold 0x19, fold 0x32, fold 0x64, fold 0xc8, fold 0x89, fold 0x0b, fold 0x16, fold 0x2c] =
    [0x01, 0x02, 0x04, 0x08, 0x10, 0x20, 0x40, 0x80] ∧
  (∀ b, Function.Bijective (updated · b)) ∧ (∀ acc, Function.Bijective (updated acc)) ∧
  (∀ (xs ys : List Byte) (a b : Byte), a ≠ b → checksum (xs ++ a :: ys) ≠ checksum (xs ++ b :: ys)) ∧
  checksum [0x00, 0x09, 0x0c, 0x80, 0x81, 0x7f, 0x80, 0x82] = 0x83 ∧
  checksum [0x00, 0x09, 0x0d, 0xde, 0x81, 0x7f, 0x80, 0x82] = 0x83

/-- R68: the constants are the chain of a right-shifting register with feedback `0x8c`, and `fold` is eight of its
steps, so CSUM.UPDATE is the bit-serial form. -/
def Obligations.FoldIsEightSerialSteps : Prop :=
  foldConst 7 = 0x8c ∧ foldConst 6 = serialStep (foldConst 7) ∧ foldConst 5 = serialStep (foldConst 6) ∧
  foldConst 4 = serialStep (foldConst 5) ∧ foldConst 3 = serialStep (foldConst 4) ∧ foldConst 2 = serialStep (foldConst 3) ∧
  foldConst 1 = serialStep (foldConst 2) ∧ foldConst 0 = serialStep (foldConst 1) ∧
  (∀ v, fold v = serialStep^[8] v) ∧ (∀ acc b, updated acc b = serialStep^[8] (acc ^^^ b))

/-- R70: feeding a stream's own checksum back gives zero, and nothing else does. -/
def Obligations.OwnChecksumGivesZero : Prop :=
  (∀ c : Byte, updated c c = 0) ∧ (∀ (bs : List Byte) (c : Byte), checksum (bs ++ [c]) = 0 ↔ c = checksum bs)

/-- R71: leading zero bytes leave no trace, and the all-zero stream has checksum zero. -/
def Obligations.LeadingZerosLeaveNoTrace : Prop :=
  ∀ n, checksum (List.replicate n 0) = 0 ∧ ∀ bs : List Byte, checksum (List.replicate n 0 ++ bs) = checksum bs

/-- R73, R74, R110 and the vectors of 95_test_vectors.md 2.4, 2.5: order, length, the check string, frames. -/
def Obligations.ChecksumVectors : Prop :=
  checksum [0x01, 0x02] = 0x78 ∧ checksum [0x02, 0x01] = 0xcf ∧ checksum [0x05] = 0x3f ∧
  checksum [0, 0, 0, 0x05] = 0x3f ∧ checksum [0x05, 0] = 0xff ∧ checksum [0x00, 0x09] = 0x9c ∧
  checksum [0x31, 0x32, 0x33, 0x34, 0x35, 0x36, 0x37, 0x38, 0x39] = 0xa1 ∧
  checksum [0x12, 0x34, 0x56, 0x00, 0x40, 0x80, 0xc0, 0xff] = 0xad ∧
  checksum [0xff, 0xff, 0x00, 0x10, 0x20, 0x30, 0x40, 0x50] = 0x49

/-- R62: CSUM.RESET, its word and its whole effect, whatever the accumulator held: everything not named is as before, and
a second one leaves the accumulator as it is. -/
def Obligations.CsumResetZeroesAcc : Prop :=
  decode 0x0100 = .ok .csumReset ∧
  (∀ s, s.phase = .idle → exec .csumReset s =
    .next { s with acc := 0, accWritten := true, done := true, rsp := none, pos := s.pos + 1 }) ∧
  (∀ s t u, s.phase = .idle → exec .csumReset s = .next t → exec .csumReset t = .next u →
    u.acc = t.acc ∧ u.accWritten = t.accWritten)

/-- R63, R68: CSUM.UPDATE in its bit-serial form: the new accumulator and the response are eight serial steps of
`ACC ^ b`; everything not named is as before. On an accumulator unwritten since reset it computes from whatever `ACC`
holds (R116) and the mark stays (the model's choice, log 1). -/
def Obligations.CsumUpdateFoldsByte : Prop :=
  ∀ s b, s.phase = .idle → exec (.csumUpdate b) s =
    .next { s with acc := serialStep^[8] (s.acc ^^^ b), done := true, rsp := some (serialStep^[8] (s.acc ^^^ b)),
                   responses := s.responses ++ [serialStep^[8] (s.acc ^^^ b)], pos := s.pos + 1 }

/-- R64: CSUM.VALUE responds with the accumulator as it stands and changes nothing of the machine's own. On an
accumulator unwritten since reset it answers whatever `ACC` holds (the model's choice, log 1). -/
def Obligations.CsumValueReadsAcc : Prop :=
  ∀ s, s.phase = .idle → exec .csumValue s =
    .next { s with done := true, rsp := some s.acc, responses := s.responses ++ [s.acc], pos := s.pos + 1 }

/-- R60, R63, R64, R72: a stream through CE. From any state with the port ready and the schedule empty, CSUM.RESET, one
CSUM.UPDATE per byte and CSUM.VALUE complete one after the other, the responses are the running values and then the
checksum, and the result is a function of the stream alone. That under the empty schedule the master moves at every step,
so that the stream takes its length plus two steps, is the model's choice (log 8). -/
def Obligations.StreamThroughEngineGivesChecksum : Prop :=
  ∀ (bs : List Byte) (rest : List MasterOp) (s : State), s.phase = .idle → s.turns = [] →
    s.todo = .present (encode .csumReset) :: bs.map (fun b => .present (encode (.csumUpdate b))) ++
      .present (encode .csumValue) :: rest →
    ∃ t, Reaches (bs.length + 2) s t ∧ t.acc = checksum bs ∧ t.accWritten = true ∧ t.rsp = some (checksum bs) ∧
      t.responses = s.responses ++ (bs.scanl updated 0).tail ++ [checksum bs] ∧ t.pos = s.pos + (bs.length + 2) ∧
      t.wire = s.wire ∧ t.phase = .idle ∧ t.todo = rest ∧ t.mem = s.mem

/-- R11: what writes the accumulator: CSUM.RESET, CSUM.UPDATE, a hardware reset, and nothing else. Only CSUM.RESET makes
it written, and only a hardware reset makes it unwritten. -/
def Obligations.AccWrittenOnlyByItsCommands : Prop :=
  ∀ s t, step s = .next t →
    (t.acc ≠ s.acc → s.nextTurn = .reset ∨ s.executes = some .csumReset ∨ ∃ b, s.executes = some (.csumUpdate b)) ∧
    (s.accWritten = false → t.accWritten = true → s.executes = some .csumReset) ∧
    (s.accWritten = true → t.accWritten = false → s.nextTurn = .reset)

/-- Frame of the CE commands (R26, R34): no field of the gate, the boundary, the wire or the master's side changes, every
byte of the master's memory reads as before; CSUM.VALUE leaves the accumulator too. -/
def Obligations.ChecksumCommandsFrame : Prop :=
  ∀ i s t, (i = .csumReset ∨ (∃ b, i = .csumUpdate b) ∨ i = .csumValue) → exec i s = .next t →
    t.phase = s.phase ∧ t.pend = s.pend ∧ t.guardCnt = s.guardCnt ∧ t.txEmpty = s.txEmpty ∧ t.fcNrdy = s.fcNrdy ∧
    t.fcUnsettled = s.fcUnsettled ∧ t.txWr = s.txWr ∧ t.txData = s.txData ∧ t.wire = s.wire ∧
    t.pastWires = s.pastWires ∧ t.program = s.program ∧ t.todo = s.todo ∧ t.turns = s.turns ∧ t.draws = s.draws ∧
    (∀ a, t.mem.read a = s.mem.read a) ∧
    (i ≠ .csumReset → t.accWritten = s.accWritten) ∧
    (i = .csumValue → t.acc = s.acc) ∧
    (i = .csumReset → t.responses = s.responses)

/-- R26, R72: what a CE command does to the accumulator and what it responds depend on the accumulator, the operand and
the port being ready alone: two states that differ in everything else give the same. -/
def Obligations.ChecksumIgnoresTheGate : Prop :=
  ∀ i s₁ s₂ t₁ t₂, (i = .csumReset ∨ (∃ b, i = .csumUpdate b) ∨ i = .csumValue) →
    s₁.phase = .idle → s₂.phase = .idle → s₁.acc = s₂.acc → s₁.accWritten = s₂.accWritten →
    exec i s₁ = .next t₁ → exec i s₂ = .next t₂ →
    t₁.acc = t₂.acc ∧ t₁.accWritten = t₂.accWritten ∧ t₁.rsp = t₂.rsp ∧ t₁.done = t₂.done

/-! ### The flow-control gate -/

/-- R81 step 1, R96: TX.SENDBYTE accepted: the operand is captured, the phase is WAIT, everything else is as before; from
here the port is busy. -/
def Obligations.SendByteIsAccepted : Prop :=
  ∀ s b, s.phase = .idle → exec (.txSendByte b) s = .next { s with phase := .wait, pend := b } ∧
    State.cmdReady { s with phase := .wait, pend := b } = false

/-- R81, S1: with the far end ready (the sample settled) and the buffer empty, TX.SENDBYTE completes in three turns:
accepted, written, guard delay over. Everything not named is as before the command. -/
def Obligations.SendByteRunsToDone : Prop :=
  ∀ s ts w todo b, s.phase = .idle → s.turns = .master [] :: .block [] :: .block [] :: ts →
    s.masterAct = .present w todo → decode w = .ok (.txSendByte b) →
    s.fcUnsettled = false → s.fcNrdy = false → s.txEmpty = true →
    Reaches 3 s { s with turns := ts, todo := todo, pend := b, guardCnt := 0, txEmpty := false, txWr := false,
                         txData := b, done := true, rsp := none, wire := s.wire ++ [b], pos := s.pos + 1,
                         draws := s.draws + 1 }

/-- R40, R83, R96: a block step in WAIT, whatever levels the far end takes within it. With the step's sample 0 and the
buffer empty in that very step the byte is written, unchanged, in the same step; otherwise nothing changes but the level
and the sample's own bookkeeping. That bookkeeping (a sample settles the mark of R19 and uses up a draw) is the model's
choice (log 4). -/
def Obligations.WaitStepWritesExactlyWhenOpen : Prop :=
  ∀ s vs, s.nextTurn = .block vs → s.phase = .wait →
    (s.seenFc = false → s.txEmpty = true → step s =
      .next { s with turns := s.turns.tail, phase := .guard, guardCnt := Config.guardCycles,
                     wire := s.wire ++ [s.pend], txEmpty := false, txWr := true, txData := s.pend, done := false,
                     rsp := none, fcNrdy := vs.getLastD s.fcNrdy, fcUnsettled := false, draws := s.draws + 1 }) ∧
    (s.seenFc = true ∨ s.txEmpty = false → step s =
      .next { s with turns := s.turns.tail, txWr := false, done := false, rsp := none,
                     fcNrdy := vs.getLastD s.fcNrdy, fcUnsettled := false, draws := s.draws + 1 })

/-- R84, R96: a block step in GUARD completes the command, with no response, whatever the levels are and however they move
within the step; nothing else changes but the level (the untimed reading of the delay, log 9). -/
def Obligations.GuardStepCompletesTheSend : Prop :=
  ∀ s vs, s.nextTurn = .block vs → s.phase = .guard → step s =
    .next { s with turns := s.turns.tail, phase := .idle, guardCnt := 0, txWr := false, done := true, rsp := none,
                   pos := s.pos + 1, fcNrdy := vs.getLastD s.fcNrdy }

/-- Frame of the gate (R26, R34): accepting a send, FC.STATUS and every block step leave the accumulator, its mark, the
master's program and every byte of its memory as they are; the level is where the far end moved it. -/
def Obligations.GateFrame : Prop :=
  (∀ i s t, ((∃ b, i = .txSendByte b) ∨ i = .fcStatus) → exec i s = .next t →
    t.acc = s.acc ∧ t.accWritten = s.accWritten ∧ t.guardCnt = s.guardCnt ∧ t.txEmpty = s.txEmpty ∧
    t.fcNrdy = s.fcNrdy ∧ t.txWr = s.txWr ∧ t.txData = s.txData ∧ t.wire = s.wire ∧ t.pastWires = s.pastWires ∧
    t.program = s.program ∧ t.todo = s.todo ∧ t.turns = s.turns ∧ (∀ a, t.mem.read a = s.mem.read a) ∧
    (i = .fcStatus → t.phase = s.phase ∧ t.pend = s.pend) ∧
    (i ≠ .fcStatus → t.fcUnsettled = s.fcUnsettled ∧ t.draws = s.draws ∧ t.responses = s.responses ∧
      t.pos = s.pos ∧ t.done = s.done ∧ t.rsp = s.rsp)) ∧
  (∀ s vs t, s.nextTurn = .block vs → step s = .next t →
    t.acc = s.acc ∧ t.accWritten = s.accWritten ∧ t.pend = s.pend ∧ t.fcNrdy = vs.getLastD s.fcNrdy ∧
    t.pastWires = s.pastWires ∧ t.responses = s.responses ∧ t.program = s.program ∧ t.todo = s.todo ∧
    ∀ a, t.mem.read a = s.mem.read a)

/-- R82: no timeout. A WAIT step that samples "not ready" or finds the buffer full stays in WAIT; the only ways out of
WAIT are the write and a hardware reset; and while the far end never becomes ready, a send that waits is still waiting
after any number of steps of anyone but reset: nothing written, no `done`, nothing accepted. -/
def Obligations.SendByteHasNoTimeout : Prop :=
  (∀ s t, s.phase = .wait → step s = .next t → s.nextTurn.isBlock = true → s.seenFc = true ∨ s.txEmpty = false →
    t.phase = .wait ∧ t.cmdReady = false ∧ t.done = false ∧ t.wire = s.wire) ∧
  (∀ s t, s.phase = .wait → step s = .next t → t.phase ≠ .wait →
    s.nextTurn = .reset ∨ (s.nextTurn.isBlock = true ∧ s.seenFc = false ∧ s.txEmpty = true)) ∧
  (∀ k s, s.phase = .wait → s.fcNrdy = true → s.fcUnsettled = false →
    (∀ u ∈ s.turns, u ≠ .reset ∧ false ∉ u.drives) →
    ∃ t, Reaches k s t ∧ t.phase = .wait ∧ t.cmdReady = false ∧ (0 < k → t.done = false) ∧ t.pend = s.pend ∧
      t.wire = s.wire ∧ t.acc = s.acc ∧ t.todo = s.todo ∧ t.responses = s.responses ∧ t.pos = s.pos)

/-- R97: in WAIT `tx_empty` once 1 stays 1; a step leaves WAIT exactly when it is a block step that samples ready with
the buffer empty (or a reset). -/
def Obligations.WaitEndsExactlyAtAReadySample : Prop :=
  ∀ s t, s.phase = .wait → s.nextTurn ≠ .reset → step s = .next t →
    (t.phase ≠ .wait ↔ s.nextTurn.isBlock = true ∧ s.seenFc = false ∧ s.txEmpty = true) ∧
    (t.phase = .wait → s.txEmpty = true → t.txEmpty = true)

/-- R97, R150: a waiting send whose far end stays ready completes, in at most three steps more than the schedule has
turns, under every schedule without a reset. That the UART drains once the schedule is over is the model's choice of
R22's weak fairness (log 8). -/
def Obligations.ReadyFarEndLetsTheSendComplete : Prop :=
  ∀ s, s.phase = .wait → s.fcNrdy = false → s.fcUnsettled = false →
    (∀ u ∈ s.turns, u ≠ .reset ∧ true ∉ u.drives) →
    ∃ k t, k ≤ s.turns.length + 3 ∧ Reaches k s t ∧ t.phase = .idle ∧ t.done = true ∧
      t.wire = s.wire ++ [s.pend] ∧ t.acc = s.acc ∧ t.todo = s.todo ∧ t.pos = s.pos + 1

/-- R90: FC.STATUS: its word, its whole effect (one sample and no other), the four response values; where a command is in
progress it is not accepted. That the sample settles the mark of R19 and uses up a draw is the model's choice (log 4), and
that a busy port answers the state unchanged is its reading of R23 (log 11). -/
def Obligations.FcStatusReadsTheTwoLevels : Prop :=
  decode 0x0500 = .ok .fcStatus ∧
  (∀ s, s.phase = .idle → exec .fcStatus s =
    .next { s with done := true, rsp := some (statusByte s.txEmpty s.sampleFc),
                   responses := s.responses ++ [statusByte s.txEmpty s.sampleFc], pos := s.pos + 1,
                   fcUnsettled := false, draws := s.draws + 1 }) ∧
  (∀ s, s.phase ≠ .idle → exec .fcStatus s = .next s) ∧
  statusByte false false = 0x00 ∧ statusByte false true = 0x01 ∧ statusByte true false = 0x02 ∧
  statusByte true true = 0x03

/-- R18, R19, R80, R86, U4: the sample of a step is a level that the far end holds within that step, so it is the level
wherever the level stays; and nothing of the level's movement is remembered from one step to the next: the mark that makes a
sample open is raised by a hardware reset and by nothing else, and stays down until the next one (log 4). -/
def Obligations.SampleIsTheLevelUnlessItChanges : Prop :=
  (∀ s : State, s.fcUnsettled = false → s.sampleFc = s.fcNrdy) ∧
  (∀ s : State, s.fcUnsettled = false → s.seenFc ∈ s.fcNrdy :: s.nextTurn.drives) ∧
  (∀ s : State, s.fcUnsettled = false → (∀ v ∈ s.nextTurn.drives, v = s.fcNrdy) → s.seenFc = s.fcNrdy) ∧
  (∀ s t, step s = .next t → s.fcUnsettled = false → t.fcUnsettled = true → s.nextTurn = .reset)

/-- R87: a pulse on `fc_nrdy` that begins and ends between two sampling steps leaves no trace, in any phase; one that begins
and ends inside a step that takes no sample (a block step in IDLE or GUARD, a master's turn without FC.STATUS) leaves none
either: the step is the one without the pulse. -/
def Obligations.PulseBetweenSamplesLeavesNoTrace : Prop :=
  (∀ s v ts, s.turns = .fcDrive v :: .fcDrive s.fcNrdy :: ts → Reaches 2 s { strobesLow s with turns := ts }) ∧
  (∀ s vs ts, s.turns = .block vs :: ts → s.phase ≠ .wait → vs.getLastD s.fcNrdy = s.fcNrdy →
    step s = step { s with turns := .block [] :: ts }) ∧
  (∀ s vs ts, s.turns = .master vs :: ts → s.executes ≠ some .fcStatus → vs.getLastD s.fcNrdy = s.fcNrdy →
    step s = step { s with turns := .master [] :: ts })

/-- R20, R39, R80, R88: outside a reset the wire only grows, by `pend`, in a block step in WAIT whose sample was ready
with the buffer empty; `tx_wr` and `tx_data` show exactly that write. -/
def Obligations.WireGrowsOnlyThroughTheGate : Prop :=
  ∀ s t, step s = .next t → s.nextTurn ≠ .reset →
    (t.wire = s.wire ∧ t.txWr = false) ∨
    (s.nextTurn.isBlock = true ∧ s.phase = .wait ∧ s.seenFc = false ∧ s.txEmpty = true ∧
      t.wire = s.wire ++ [s.pend] ∧ t.txWr = true ∧ t.txData = s.pend ∧ t.txEmpty = false)

/-- R38, R85: over a run without a reset, the wire and the byte in flight grow by exactly the operands of the accepted
TX.SENDBYTE commands, in order, each once: none lost, repeated, reordered or invented. -/
def Obligations.EachAcceptedByteIsWrittenOnceInOrder : Prop :=
  ∀ k s t, s.NoReset → Reaches k s t → t.wire ++ t.inFlight = s.wire ++ s.inFlight ++ acceptedIn k s

/-- R18, R22: who changes the two levels: `fc_nrdy` is the last level the far end took in the step, if it took one, and
else as before, whoever's step it was; `tx_empty` is cleared only by the write and set only by UartDrain (a hardware reset
leaves `tx_empty` unspecified). -/
def Obligations.LevelsChangeOnlyByTheirOwners : Prop :=
  ∀ s t, step s = .next t →
    t.fcNrdy = s.nextTurn.drives.getLastD s.fcNrdy ∧
    (s.txEmpty = true → t.txEmpty = false → s.nextTurn = .reset ∨ (s.nextTurn.isBlock = true ∧ s.phase = .wait)) ∧
    (s.txEmpty = false → t.txEmpty = true → s.nextTurn = .reset ∨ s.nextTurn = .uartDrain)

/-- R5, R84, R131, R149: GUARD_CYCLES is the guard delay times the clock, rounded up; the delay is at least the nominal 50
microseconds. -/
def Obligations.GuardCyclesAreRoundedUp : Prop :=
  50 ≤ Config.guardUs ∧ Config.guardUs * Config.clockHz ≤ Config.guardCycles * 1000000 ∧
  Config.guardCycles * 1000000 < Config.guardUs * Config.clockHz + 1000000

/-! ### Reset -/

/-- R28: the values after a hardware reset, for every piece of state it gives one for, the constants of R12 among them. -/
def Obligations.ResetStateValues : Prop :=
  State.reset.view.acc = none ∧ State.reset.accWritten = false ∧
  (List.finRange 8).map foldConst = [0x5e, 0xbc, 0x61, 0xc2, 0x9d, 0x23, 0x46, 0x8c] ∧
  State.reset.phase = .idle ∧ State.reset.guardCnt = 0 ∧
  State.reset.busy = false ∧ State.reset.cmdReady = true ∧ State.reset.rsp = none ∧ State.reset.txWr = false ∧
  State.reset.wire = []

/-- R142: a reset turn in any phase: a byte waiting in WAIT is never written and the wire was as before the command; a
byte written before stays in what is kept of the wire; no `done` is given; the accumulator is unspecified, the phase IDLE
and the wire cleared, its old value kept as history. -/
def Obligations.RestartAbandonsTheCommand : Prop :=
  ∀ s, s.nextTurn = .reset → ∃ t, step s = .next t ∧
    t.accWritten = false ∧ t.phase = .idle ∧ t.wire = [] ∧ t.pastWires = s.pastWires ++ [s.wire] ∧ t.done = false ∧
    t.inFlight = []

/-- R119, R123, R140, R143: reset wins whatever was due in its step; it acts in every state; the block is then in the
reset state; nothing is written to the UART; `fc_nrdy` stays; the first sample is open (R19); the master starts from the
beginning of its program. The model's choices: its memory stays (log 7), the list of responses starts anew (log 5), and the
mark `fcUnsettled` is the form the open first sample takes (log 4). -/
def Obligations.RestartPutsTheBlockInItsResetState : Prop :=
  ∀ s, s.nextTurn = .reset → ∃ t, step s = .next t ∧
    t.view = { State.reset.view with pend := t.pend, txEmpty := t.txEmpty, fcNrdy := s.fcNrdy } ∧
    t.guardCnt = State.reset.guardCnt ∧ t.txWr = false ∧ t.rsp = none ∧ t.cmdReady = true ∧
    t.fcUnsettled = true ∧ t.responses = [] ∧ t.pos = 0 ∧ t.program = s.program ∧ t.todo = s.program ∧
    t.mem = s.mem ∧ t.turns = s.turns.tail

/-! ### The master's sequences -/

/-- R24, R30, R102: the master's MemWrite of its last response: that byte reads as written, every other byte as before,
the canonical form is kept, the block sees nothing. -/
def Obligations.MasterStoresTheResponse : Prop :=
  ∀ s vs a rest, s.phase = .idle → s.nextTurn = .master vs → s.todo = .storeRsp a :: rest → s.mem.wf = true →
    ∃ t, step s = .next t ∧ t.mem.read a = some s.lastResponse ∧ (∀ b, b ≠ a → t.mem.read b = s.mem.read b) ∧
      t.mem.wf = true ∧ t.todo = rest ∧ t.view = s.view.moved vs

/-- R31, R100, R102: the frame is the uptime high byte first, speed, five directions, and the checksum of those eight, nine
bytes; a receiver that folds all nine ends at zero (R70). -/
def Obligations.FrameLayoutAndReceiverCheck : Prop :=
  ∀ (u : Word) (sp d0 d1 d2 d3 d4 : Byte),
    let f := withChecksum (frameData u sp d0 d1 d2 d3 d4)
    f.length = 9 ∧ f[0]? = some (u.extractLsb' 8 8) ∧ f[1]? = some (u.extractLsb' 0 8) ∧
    f[2]? = some sp ∧ f[3]? = some d0 ∧ f[4]? = some d1 ∧ f[5]? = some d2 ∧ f[6]? = some d3 ∧ f[7]? = some d4 ∧
    f[8]? = some (checksum (f.take 8)) ∧ checksum f = 0

/-- R102, P1: FRAME.CSUM. With eight readable bytes at `a`, whatever the schedule does short of a reset, when the run has
ended the accumulator is their checksum, it is stored at `a + 8` and nowhere else, and nothing was sent; and under the
empty schedule it is an ended run after twelve steps (that the master moves at every step there is the model's choice,
log 8). -/
def Obligations.FrameCsumStoresTheChecksum : Prop :=
  ∀ s a (bs : List Byte), s.phase = .idle → s.todo = [.frameCsum a] → bs.length = 8 →
    (∀ k, k < 8 → s.mem.read (a + k) = bs[k]?) →
    (∀ n t, s.NoReset → Reaches n s t → t.AtEnd →
      t.acc = checksum bs ∧ t.mem = s.mem.write (a + 8) (checksum bs) ∧ t.wire = s.wire) ∧
    (s.turns = [] → ∃ t, EndedRun 12 s t)

/-- R104: FRAME.SEND. With nine readable bytes at `a`, whatever the schedule does short of a reset, when the run has ended
the wire has grown by exactly those nine bytes in order, and the accumulator and the memory are as before. -/
def Obligations.FrameSendPutsNineBytesOnTheWire : Prop :=
  ∀ s a (bs : List Byte) n t, s.phase = .idle → s.todo = [.frameSend a] → bs.length = 9 →
    (∀ k, k < 9 → s.mem.read (a + k) = bs[k]?) → s.NoReset → Reaches n s t → t.AtEnd →
    t.wire = s.wire ++ bs ∧ t.acc = s.acc ∧ t.mem = s.mem

/-- R56, R91: TX.SENDSTRING. With the bytes of `bs`, none of them zero, at `a` and a zero byte after them, when the run
has ended, whatever the schedule does short of a reset, the wire has grown by exactly `bs`: the terminator is not sent. -/
def Obligations.SendStringStopsAtTheNull : Prop :=
  ∀ s a (bs : List Byte) n t, s.phase = .idle → s.todo = [.sendString a] → (∀ b ∈ bs, b ≠ 0) →
    (∀ k, k < bs.length → s.mem.read (a + k) = bs[k]?) → s.mem.read (a + bs.length) = some 0 →
    s.NoReset → Reaches n s t → t.AtEnd →
    t.wire = s.wire ++ bs ∧ t.acc = s.acc

/-- R109: the end-to-end property. After FRAME.CSUM and FRAME.SEND on the same eight bytes, whatever the schedule does
short of a reset, an ended run has put those bytes and their checksum on the wire, and the nine of them fold to zero. -/
def Obligations.ReportedFrameCarriesItsChecksum : Prop :=
  ∀ s a (bs : List Byte) n t, s.phase = .idle → s.todo = [.frameCsum a, .frameSend a] → bs.length = 8 →
    (∀ k, k < 8 → s.mem.read (a + k) = bs[k]?) → s.NoReset → Reaches n s t → t.AtEnd →
    t.wire = s.wire ++ withChecksum bs ∧ checksum (withChecksum bs) = 0

/-- R107: a CSUM.UPDATE and a TX.SENDBYTE in either order give the same accumulator, wire, responses and memory (far end
ready, buffer empty, four steps each). That the empty schedule runs them in four steps is the model's choice (log 8). -/
def Obligations.InterleavingChangesNoResult : Prop :=
  ∀ (s : State) (b x : Byte) (rest : List MasterOp), s.phase = .idle → s.turns = [] → s.fcUnsettled = false → s.fcNrdy = false → s.txEmpty = true →
    ∃ t u, Reaches 4 { s with todo := .present (encode (.csumUpdate b)) :: .present (encode (.txSendByte x)) :: rest } t ∧
      Reaches 4 { s with todo := .present (encode (.txSendByte x)) :: .present (encode (.csumUpdate b)) :: rest } u ∧
      t.acc = updated s.acc b ∧ t.wire = s.wire ++ [x] ∧ t.view = u.view ∧ t.responses = u.responses ∧
      t.mem = u.mem ∧ t.todo = u.todo ∧ t.pos = u.pos

/-! ### The whole machine -/

/-- R96: every step of the machine is a row of the transition table of R25's record, for the turn that moved, the command
executed and the level sampled, and its `done` and response are that row's: a row not listed does not exist. (On an
accumulator unwritten since reset the record stays unwritten: the model's choice, log 1.) -/
def Obligations.EveryStepIsARowOfTheTransitionTable : Prop :=
  ∀ s t, step s = .next t →
    WscfStep s.nextTurn s.executes s.seenFc s.view t.view ∧ t.done = s.completes ∧ t.rsp = s.response

/-- The state right after a hardware reset satisfies the invariant. -/
def Obligations.ResetStateSatisfiesInvariant : Prop := State.reset.Inv

/-- Every step keeps the invariant, from every state that satisfies it. -/
def Obligations.StepKeepsInvariant : Prop := ∀ s t, s.Inv → step s = .next t → t.Inv

/-! ### What a run's end is -/

/-- R8: the verdict on a run is "ended" exactly for an ended run, with what is observed of it; a run that reads `ACC`
unwritten is faulted and one that reaches a reserved word is refused, at whatever step, and neither is an ended run; so a
program that begins with a read of `ACC` is faulted from the start. (The machine itself goes on there with a free value:
the model's choice, log 1.) -/
def Obligations.EndedRunIsNeitherFaultedNorRefused : Prop :=
  (∀ k s o, judge k s = .ended o ↔ ∃ t, EndedRun k s t ∧ t.observed = o) ∧
  (∀ j k s u, j < k → SafeRun j s → Reaches j s u → u.readsUnwrittenAcc = true →
    judge k s = .faulted ∧ ∀ t, ¬ EndedRun k s t) ∧
  (∀ j k s u w why, j < k → SafeRun j s → Reaches j s u → u.presented = some w → decode w = .error why →
    judge k s = .refused ∧ ∀ t, ¬ EndedRun k s t) ∧
  (∀ p m vs ts w i k, decode w = .ok i → (i = .csumValue ∨ ∃ b, i = .csumUpdate b) →
    judge (k + 1) (State.start (.present w :: p) m (.master vs :: ts)) = .faulted)
end

