-- ==== Sys2Proof/Laws/State.lean ====
section
/-! SUPPORT. One lemma per field of State per shared update, so that no later proof unfolds a record update. -/

namespace Sys2Proof.Machine

/-! ### complete -/

@[simp] theorem complete_acc (r : Option Byte) (s : State) : (complete r s).acc = s.acc := rfl
@[simp] theorem complete_accWritten (r : Option Byte) (s : State) : (complete r s).accWritten = s.accWritten := rfl
@[simp] theorem complete_phase (r : Option Byte) (s : State) : (complete r s).phase = s.phase := rfl
@[simp] theorem complete_pend (r : Option Byte) (s : State) : (complete r s).pend = s.pend := rfl
@[simp] theorem complete_guardCnt (r : Option Byte) (s : State) : (complete r s).guardCnt = s.guardCnt := rfl
@[simp] theorem complete_txEmpty (r : Option Byte) (s : State) : (complete r s).txEmpty = s.txEmpty := rfl
@[simp] theorem complete_fcNrdy (r : Option Byte) (s : State) : (complete r s).fcNrdy = s.fcNrdy := rfl
@[simp] theorem complete_fcUnsettled (r : Option Byte) (s : State) : (complete r s).fcUnsettled = s.fcUnsettled := rfl
@[simp] theorem complete_txWr (r : Option Byte) (s : State) : (complete r s).txWr = s.txWr := rfl
@[simp] theorem complete_txData (r : Option Byte) (s : State) : (complete r s).txData = s.txData := rfl
@[simp] theorem complete_done (r : Option Byte) (s : State) : (complete r s).done = true := rfl
@[simp] theorem complete_rsp (r : Option Byte) (s : State) : (complete r s).rsp = r := rfl
@[simp] theorem complete_wire (r : Option Byte) (s : State) : (complete r s).wire = s.wire := rfl
@[simp] theorem complete_pastWires (r : Option Byte) (s : State) : (complete r s).pastWires = s.pastWires := rfl
@[simp] theorem complete_responses (r : Option Byte) (s : State) : (complete r s).responses = s.responses ++ r.toList := rfl
@[simp] theorem complete_program (r : Option Byte) (s : State) : (complete r s).program = s.program := rfl
@[simp] theorem complete_todo (r : Option Byte) (s : State) : (complete r s).todo = s.todo := rfl
@[simp] theorem complete_pos (r : Option Byte) (s : State) : (complete r s).pos = s.pos + 1 := rfl
@[simp] theorem complete_mem (r : Option Byte) (s : State) : (complete r s).mem = s.mem := rfl
@[simp] theorem complete_turns (r : Option Byte) (s : State) : (complete r s).turns = s.turns := rfl
@[simp] theorem complete_draws (r : Option Byte) (s : State) : (complete r s).draws = s.draws := rfl

/-! ### strobesLow -/

@[simp] theorem strobesLow_acc (s : State) : (strobesLow s).acc = s.acc := rfl
@[simp] theorem strobesLow_accWritten (s : State) : (strobesLow s).accWritten = s.accWritten := rfl
@[simp] theorem strobesLow_phase (s : State) : (strobesLow s).phase = s.phase := rfl
@[simp] theorem strobesLow_pend (s : State) : (strobesLow s).pend = s.pend := rfl
@[simp] theorem strobesLow_guardCnt (s : State) : (strobesLow s).guardCnt = s.guardCnt := rfl
@[simp] theorem strobesLow_txEmpty (s : State) : (strobesLow s).txEmpty = s.txEmpty := rfl
@[simp] theorem strobesLow_fcNrdy (s : State) : (strobesLow s).fcNrdy = s.fcNrdy := rfl
@[simp] theorem strobesLow_fcUnsettled (s : State) : (strobesLow s).fcUnsettled = s.fcUnsettled := rfl
@[simp] theorem strobesLow_txWr (s : State) : (strobesLow s).txWr = false := rfl
@[simp] theorem strobesLow_txData (s : State) : (strobesLow s).txData = s.txData := rfl
@[simp] theorem strobesLow_done (s : State) : (strobesLow s).done = false := rfl
@[simp] theorem strobesLow_rsp (s : State) : (strobesLow s).rsp = none := rfl
@[simp] theorem strobesLow_wire (s : State) : (strobesLow s).wire = s.wire := rfl
@[simp] theorem strobesLow_pastWires (s : State) : (strobesLow s).pastWires = s.pastWires := rfl
@[simp] theorem strobesLow_responses (s : State) : (strobesLow s).responses = s.responses := rfl
@[simp] theorem strobesLow_program (s : State) : (strobesLow s).program = s.program := rfl
@[simp] theorem strobesLow_todo (s : State) : (strobesLow s).todo = s.todo := rfl
@[simp] theorem strobesLow_pos (s : State) : (strobesLow s).pos = s.pos := rfl
@[simp] theorem strobesLow_mem (s : State) : (strobesLow s).mem = s.mem := rfl
@[simp] theorem strobesLow_turns (s : State) : (strobesLow s).turns = s.turns := rfl
@[simp] theorem strobesLow_draws (s : State) : (strobesLow s).draws = s.draws := rfl

/-! ### uartWrite -/

@[simp] theorem uartWrite_acc (b : Byte) (s : State) : (uartWrite b s).acc = s.acc := rfl
@[simp] theorem uartWrite_accWritten (b : Byte) (s : State) : (uartWrite b s).accWritten = s.accWritten := rfl
@[simp] theorem uartWrite_phase (b : Byte) (s : State) : (uartWrite b s).phase = s.phase := rfl
@[simp] theorem uartWrite_pend (b : Byte) (s : State) : (uartWrite b s).pend = s.pend := rfl
@[simp] theorem uartWrite_guardCnt (b : Byte) (s : State) : (uartWrite b s).guardCnt = s.guardCnt := rfl
@[simp] theorem uartWrite_txEmpty (b : Byte) (s : State) : (uartWrite b s).txEmpty = false := rfl
@[simp] theorem uartWrite_fcNrdy (b : Byte) (s : State) : (uartWrite b s).fcNrdy = s.fcNrdy := rfl
@[simp] theorem uartWrite_fcUnsettled (b : Byte) (s : State) : (uartWrite b s).fcUnsettled = s.fcUnsettled := rfl
@[simp] theorem uartWrite_txWr (b : Byte) (s : State) : (uartWrite b s).txWr = true := rfl
@[simp] theorem uartWrite_txData (b : Byte) (s : State) : (uartWrite b s).txData = b := rfl
@[simp] theorem uartWrite_done (b : Byte) (s : State) : (uartWrite b s).done = s.done := rfl
@[simp] theorem uartWrite_rsp (b : Byte) (s : State) : (uartWrite b s).rsp = s.rsp := rfl
@[simp] theorem uartWrite_wire (b : Byte) (s : State) : (uartWrite b s).wire = s.wire ++ [b] := rfl
@[simp] theorem uartWrite_pastWires (b : Byte) (s : State) : (uartWrite b s).pastWires = s.pastWires := rfl
@[simp] theorem uartWrite_responses (b : Byte) (s : State) : (uartWrite b s).responses = s.responses := rfl
@[simp] theorem uartWrite_program (b : Byte) (s : State) : (uartWrite b s).program = s.program := rfl
@[simp] theorem uartWrite_todo (b : Byte) (s : State) : (uartWrite b s).todo = s.todo := rfl
@[simp] theorem uartWrite_pos (b : Byte) (s : State) : (uartWrite b s).pos = s.pos := rfl
@[simp] theorem uartWrite_mem (b : Byte) (s : State) : (uartWrite b s).mem = s.mem := rfl
@[simp] theorem uartWrite_turns (b : Byte) (s : State) : (uartWrite b s).turns = s.turns := rfl
@[simp] theorem uartWrite_draws (b : Byte) (s : State) : (uartWrite b s).draws = s.draws := rfl

/-! ### restart -/

@[simp] theorem restart_acc (s : State) : (restart s).acc = Config.accAtReset (s.draws + 1) := rfl
@[simp] theorem restart_accWritten (s : State) : (restart s).accWritten = false := rfl
@[simp] theorem restart_phase (s : State) : (restart s).phase = .idle := rfl
@[simp] theorem restart_pend (s : State) : (restart s).pend = 0 := rfl
@[simp] theorem restart_guardCnt (s : State) : (restart s).guardCnt = 0 := rfl
@[simp] theorem restart_txEmpty (s : State) : (restart s).txEmpty = Config.txEmptyAtReset (s.draws + 1) := rfl
@[simp] theorem restart_fcNrdy (s : State) : (restart s).fcNrdy = s.fcNrdy := rfl
@[simp] theorem restart_fcUnsettled (s : State) : (restart s).fcUnsettled = true := rfl
@[simp] theorem restart_txWr (s : State) : (restart s).txWr = false := rfl
@[simp] theorem restart_txData (s : State) : (restart s).txData = 0 := rfl
@[simp] theorem restart_done (s : State) : (restart s).done = false := rfl
@[simp] theorem restart_rsp (s : State) : (restart s).rsp = none := rfl
@[simp] theorem restart_wire (s : State) : (restart s).wire = [] := rfl
@[simp] theorem restart_pastWires (s : State) : (restart s).pastWires = s.pastWires ++ [s.wire] := rfl
@[simp] theorem restart_responses (s : State) : (restart s).responses = [] := rfl
@[simp] theorem restart_program (s : State) : (restart s).program = s.program := rfl
@[simp] theorem restart_todo (s : State) : (restart s).todo = s.program := rfl
@[simp] theorem restart_pos (s : State) : (restart s).pos = 0 := rfl
@[simp] theorem restart_mem (s : State) : (restart s).mem = s.mem := rfl
@[simp] theorem restart_turns (s : State) : (restart s).turns = s.turns := rfl
@[simp] theorem restart_draws (s : State) : (restart s).draws = s.draws + 1 := rfl

/-! ### afterSample -/

@[simp] theorem afterSample_acc (s : State) : (afterSample s).acc = s.acc := rfl
@[simp] theorem afterSample_accWritten (s : State) : (afterSample s).accWritten = s.accWritten := rfl
@[simp] theorem afterSample_phase (s : State) : (afterSample s).phase = s.phase := rfl
@[simp] theorem afterSample_pend (s : State) : (afterSample s).pend = s.pend := rfl
@[simp] theorem afterSample_guardCnt (s : State) : (afterSample s).guardCnt = s.guardCnt := rfl
@[simp] theorem afterSample_txEmpty (s : State) : (afterSample s).txEmpty = s.txEmpty := rfl
@[simp] theorem afterSample_fcNrdy (s : State) : (afterSample s).fcNrdy = s.fcNrdy := rfl
@[simp] theorem afterSample_fcUnsettled (s : State) : (afterSample s).fcUnsettled = false := rfl
@[simp] theorem afterSample_txWr (s : State) : (afterSample s).txWr = s.txWr := rfl
@[simp] theorem afterSample_txData (s : State) : (afterSample s).txData = s.txData := rfl
@[simp] theorem afterSample_done (s : State) : (afterSample s).done = s.done := rfl
@[simp] theorem afterSample_rsp (s : State) : (afterSample s).rsp = s.rsp := rfl
@[simp] theorem afterSample_wire (s : State) : (afterSample s).wire = s.wire := rfl
@[simp] theorem afterSample_pastWires (s : State) : (afterSample s).pastWires = s.pastWires := rfl
@[simp] theorem afterSample_responses (s : State) : (afterSample s).responses = s.responses := rfl
@[simp] theorem afterSample_program (s : State) : (afterSample s).program = s.program := rfl
@[simp] theorem afterSample_todo (s : State) : (afterSample s).todo = s.todo := rfl
@[simp] theorem afterSample_pos (s : State) : (afterSample s).pos = s.pos := rfl
@[simp] theorem afterSample_mem (s : State) : (afterSample s).mem = s.mem := rfl
@[simp] theorem afterSample_turns (s : State) : (afterSample s).turns = s.turns := rfl
@[simp] theorem afterSample_draws (s : State) : (afterSample s).draws = s.draws + 1 := rfl

/-! ### writePending -/

@[simp] theorem writePending_acc (s : State) : (writePending s).acc = s.acc := rfl
@[simp] theorem writePending_accWritten (s : State) : (writePending s).accWritten = s.accWritten := rfl
@[simp] theorem writePending_phase (s : State) : (writePending s).phase = .guard := rfl
@[simp] theorem writePending_pend (s : State) : (writePending s).pend = s.pend := rfl
@[simp] theorem writePending_guardCnt (s : State) : (writePending s).guardCnt = Config.guardCycles := rfl
@[simp] theorem writePending_txEmpty (s : State) : (writePending s).txEmpty = false := rfl
@[simp] theorem writePending_fcNrdy (s : State) : (writePending s).fcNrdy = s.fcNrdy := rfl
@[simp] theorem writePending_fcUnsettled (s : State) : (writePending s).fcUnsettled = s.fcUnsettled := rfl
@[simp] theorem writePending_txWr (s : State) : (writePending s).txWr = true := rfl
@[simp] theorem writePending_txData (s : State) : (writePending s).txData = s.pend := rfl
@[simp] theorem writePending_done (s : State) : (writePending s).done = s.done := rfl
@[simp] theorem writePending_rsp (s : State) : (writePending s).rsp = s.rsp := rfl
@[simp] theorem writePending_wire (s : State) : (writePending s).wire = s.wire ++ [s.pend] := rfl
@[simp] theorem writePending_pastWires (s : State) : (writePending s).pastWires = s.pastWires := rfl
@[simp] theorem writePending_responses (s : State) : (writePending s).responses = s.responses := rfl
@[simp] theorem writePending_program (s : State) : (writePending s).program = s.program := rfl
@[simp] theorem writePending_todo (s : State) : (writePending s).todo = s.todo := rfl
@[simp] theorem writePending_pos (s : State) : (writePending s).pos = s.pos := rfl
@[simp] theorem writePending_mem (s : State) : (writePending s).mem = s.mem := rfl
@[simp] theorem writePending_turns (s : State) : (writePending s).turns = s.turns := rfl
@[simp] theorem writePending_draws (s : State) : (writePending s).draws = s.draws := rfl

/-! ### guardStep -/

@[simp] theorem guardStep_acc (s : State) : (guardStep s).acc = s.acc := rfl
@[simp] theorem guardStep_accWritten (s : State) : (guardStep s).accWritten = s.accWritten := rfl
@[simp] theorem guardStep_phase (s : State) : (guardStep s).phase = .idle := rfl
@[simp] theorem guardStep_pend (s : State) : (guardStep s).pend = s.pend := rfl
@[simp] theorem guardStep_guardCnt (s : State) : (guardStep s).guardCnt = 0 := rfl
@[simp] theorem guardStep_txEmpty (s : State) : (guardStep s).txEmpty = s.txEmpty := rfl
@[simp] theorem guardStep_fcNrdy (s : State) : (guardStep s).fcNrdy = s.fcNrdy := rfl
@[simp] theorem guardStep_fcUnsettled (s : State) : (guardStep s).fcUnsettled = s.fcUnsettled := rfl
@[simp] theorem guardStep_txWr (s : State) : (guardStep s).txWr = s.txWr := rfl
@[simp] theorem guardStep_txData (s : State) : (guardStep s).txData = s.txData := rfl
@[simp] theorem guardStep_done (s : State) : (guardStep s).done = true := rfl
@[simp] theorem guardStep_rsp (s : State) : (guardStep s).rsp = none := rfl
@[simp] theorem guardStep_wire (s : State) : (guardStep s).wire = s.wire := rfl
@[simp] theorem guardStep_pastWires (s : State) : (guardStep s).pastWires = s.pastWires := rfl
@[simp] theorem guardStep_responses (s : State) : (guardStep s).responses = s.responses := by simp [guardStep, complete]
@[simp] theorem guardStep_program (s : State) : (guardStep s).program = s.program := rfl
@[simp] theorem guardStep_todo (s : State) : (guardStep s).todo = s.todo := rfl
@[simp] theorem guardStep_pos (s : State) : (guardStep s).pos = s.pos + 1 := rfl
@[simp] theorem guardStep_mem (s : State) : (guardStep s).mem = s.mem := rfl
@[simp] theorem guardStep_turns (s : State) : (guardStep s).turns = s.turns := rfl
@[simp] theorem guardStep_draws (s : State) : (guardStep s).draws = s.draws := rfl

/-! ### guardTick -/

@[simp] theorem guardTick_acc (s : State) : (guardTick s).acc = s.acc := rfl
@[simp] theorem guardTick_accWritten (s : State) : (guardTick s).accWritten = s.accWritten := rfl
@[simp] theorem guardTick_phase (s : State) : (guardTick s).phase = s.phase := rfl
@[simp] theorem guardTick_pend (s : State) : (guardTick s).pend = s.pend := rfl
@[simp] theorem guardTick_guardCnt (s : State) : (guardTick s).guardCnt = s.guardCnt - 1 := rfl
@[simp] theorem guardTick_txEmpty (s : State) : (guardTick s).txEmpty = s.txEmpty := rfl
@[simp] theorem guardTick_fcNrdy (s : State) : (guardTick s).fcNrdy = s.fcNrdy := rfl
@[simp] theorem guardTick_fcUnsettled (s : State) : (guardTick s).fcUnsettled = s.fcUnsettled := rfl
@[simp] theorem guardTick_txWr (s : State) : (guardTick s).txWr = s.txWr := rfl
@[simp] theorem guardTick_txData (s : State) : (guardTick s).txData = s.txData := rfl
@[simp] theorem guardTick_done (s : State) : (guardTick s).done = s.done := rfl
@[simp] theorem guardTick_rsp (s : State) : (guardTick s).rsp = s.rsp := rfl
@[simp] theorem guardTick_wire (s : State) : (guardTick s).wire = s.wire := rfl
@[simp] theorem guardTick_pastWires (s : State) : (guardTick s).pastWires = s.pastWires := rfl
@[simp] theorem guardTick_responses (s : State) : (guardTick s).responses = s.responses := rfl
@[simp] theorem guardTick_program (s : State) : (guardTick s).program = s.program := rfl
@[simp] theorem guardTick_todo (s : State) : (guardTick s).todo = s.todo := rfl
@[simp] theorem guardTick_pos (s : State) : (guardTick s).pos = s.pos := rfl
@[simp] theorem guardTick_mem (s : State) : (guardTick s).mem = s.mem := rfl
@[simp] theorem guardTick_turns (s : State) : (guardTick s).turns = s.turns := rfl
@[simp] theorem guardTick_draws (s : State) : (guardTick s).draws = s.draws := rfl

/-! ### fcDrive -/

@[simp] theorem fcDrive_acc (v : Bool) (s : State) : (fcDrive v s).acc = s.acc := rfl
@[simp] theorem fcDrive_accWritten (v : Bool) (s : State) : (fcDrive v s).accWritten = s.accWritten := rfl
@[simp] theorem fcDrive_phase (v : Bool) (s : State) : (fcDrive v s).phase = s.phase := rfl
@[simp] theorem fcDrive_pend (v : Bool) (s : State) : (fcDrive v s).pend = s.pend := rfl
@[simp] theorem fcDrive_guardCnt (v : Bool) (s : State) : (fcDrive v s).guardCnt = s.guardCnt := rfl
@[simp] theorem fcDrive_txEmpty (v : Bool) (s : State) : (fcDrive v s).txEmpty = s.txEmpty := rfl
@[simp] theorem fcDrive_fcNrdy (v : Bool) (s : State) : (fcDrive v s).fcNrdy = v := rfl
@[simp] theorem fcDrive_fcUnsettled (v : Bool) (s : State) : (fcDrive v s).fcUnsettled = s.fcUnsettled := rfl
@[simp] theorem fcDrive_txWr (v : Bool) (s : State) : (fcDrive v s).txWr = s.txWr := rfl
@[simp] theorem fcDrive_txData (v : Bool) (s : State) : (fcDrive v s).txData = s.txData := rfl
@[simp] theorem fcDrive_done (v : Bool) (s : State) : (fcDrive v s).done = s.done := rfl
@[simp] theorem fcDrive_rsp (v : Bool) (s : State) : (fcDrive v s).rsp = s.rsp := rfl
@[simp] theorem fcDrive_wire (v : Bool) (s : State) : (fcDrive v s).wire = s.wire := rfl
@[simp] theorem fcDrive_pastWires (v : Bool) (s : State) : (fcDrive v s).pastWires = s.pastWires := rfl
@[simp] theorem fcDrive_responses (v : Bool) (s : State) : (fcDrive v s).responses = s.responses := rfl
@[simp] theorem fcDrive_program (v : Bool) (s : State) : (fcDrive v s).program = s.program := rfl
@[simp] theorem fcDrive_todo (v : Bool) (s : State) : (fcDrive v s).todo = s.todo := rfl
@[simp] theorem fcDrive_pos (v : Bool) (s : State) : (fcDrive v s).pos = s.pos := rfl
@[simp] theorem fcDrive_mem (v : Bool) (s : State) : (fcDrive v s).mem = s.mem := rfl
@[simp] theorem fcDrive_turns (v : Bool) (s : State) : (fcDrive v s).turns = s.turns := rfl
@[simp] theorem fcDrive_draws (v : Bool) (s : State) : (fcDrive v s).draws = s.draws := rfl

/-! ### levelsMove -/

@[simp] theorem levelsMove_acc (vs : List Bool) (s : State) : (levelsMove vs s).acc = s.acc := rfl
@[simp] theorem levelsMove_accWritten (vs : List Bool) (s : State) : (levelsMove vs s).accWritten = s.accWritten := rfl
@[simp] theorem levelsMove_phase (vs : List Bool) (s : State) : (levelsMove vs s).phase = s.phase := rfl
@[simp] theorem levelsMove_pend (vs : List Bool) (s : State) : (levelsMove vs s).pend = s.pend := rfl
@[simp] theorem levelsMove_guardCnt (vs : List Bool) (s : State) : (levelsMove vs s).guardCnt = s.guardCnt := rfl
@[simp] theorem levelsMove_txEmpty (vs : List Bool) (s : State) : (levelsMove vs s).txEmpty = s.txEmpty := rfl
@[simp] theorem levelsMove_fcNrdy (vs : List Bool) (s : State) : (levelsMove vs s).fcNrdy = s.fcNrdy := rfl
@[simp] theorem levelsMove_fcUnsettled (vs : List Bool) (s : State) : (levelsMove vs s).fcUnsettled = (s.fcUnsettled || vs.any (· != s.fcNrdy)) := rfl
@[simp] theorem levelsMove_txWr (vs : List Bool) (s : State) : (levelsMove vs s).txWr = s.txWr := rfl
@[simp] theorem levelsMove_txData (vs : List Bool) (s : State) : (levelsMove vs s).txData = s.txData := rfl
@[simp] theorem levelsMove_done (vs : List Bool) (s : State) : (levelsMove vs s).done = s.done := rfl
@[simp] theorem levelsMove_rsp (vs : List Bool) (s : State) : (levelsMove vs s).rsp = s.rsp := rfl
@[simp] theorem levelsMove_wire (vs : List Bool) (s : State) : (levelsMove vs s).wire = s.wire := rfl
@[simp] theorem levelsMove_pastWires (vs : List Bool) (s : State) : (levelsMove vs s).pastWires = s.pastWires := rfl
@[simp] theorem levelsMove_responses (vs : List Bool) (s : State) : (levelsMove vs s).responses = s.responses := rfl
@[simp] theorem levelsMove_program (vs : List Bool) (s : State) : (levelsMove vs s).program = s.program := rfl
@[simp] theorem levelsMove_todo (vs : List Bool) (s : State) : (levelsMove vs s).todo = s.todo := rfl
@[simp] theorem levelsMove_pos (vs : List Bool) (s : State) : (levelsMove vs s).pos = s.pos := rfl
@[simp] theorem levelsMove_mem (vs : List Bool) (s : State) : (levelsMove vs s).mem = s.mem := rfl
@[simp] theorem levelsMove_turns (vs : List Bool) (s : State) : (levelsMove vs s).turns = s.turns := rfl
@[simp] theorem levelsMove_draws (vs : List Bool) (s : State) : (levelsMove vs s).draws = s.draws := rfl

/-! ### levelsMoved -/

@[simp] theorem levelsMoved_acc (vs : List Bool) (u : Bool) (s : State) : (levelsMoved vs u s).acc = s.acc := rfl
@[simp] theorem levelsMoved_accWritten (vs : List Bool) (u : Bool) (s : State) : (levelsMoved vs u s).accWritten = s.accWritten := rfl
@[simp] theorem levelsMoved_phase (vs : List Bool) (u : Bool) (s : State) : (levelsMoved vs u s).phase = s.phase := rfl
@[simp] theorem levelsMoved_pend (vs : List Bool) (u : Bool) (s : State) : (levelsMoved vs u s).pend = s.pend := rfl
@[simp] theorem levelsMoved_guardCnt (vs : List Bool) (u : Bool) (s : State) : (levelsMoved vs u s).guardCnt = s.guardCnt := rfl
@[simp] theorem levelsMoved_txEmpty (vs : List Bool) (u : Bool) (s : State) : (levelsMoved vs u s).txEmpty = s.txEmpty := rfl
@[simp] theorem levelsMoved_fcNrdy (vs : List Bool) (u : Bool) (s : State) : (levelsMoved vs u s).fcNrdy = vs.getLastD s.fcNrdy := rfl
@[simp] theorem levelsMoved_fcUnsettled (vs : List Bool) (u : Bool) (s : State) : (levelsMoved vs u s).fcUnsettled = (u && s.fcUnsettled) := rfl
@[simp] theorem levelsMoved_txWr (vs : List Bool) (u : Bool) (s : State) : (levelsMoved vs u s).txWr = s.txWr := rfl
@[simp] theorem levelsMoved_txData (vs : List Bool) (u : Bool) (s : State) : (levelsMoved vs u s).txData = s.txData := rfl
@[simp] theorem levelsMoved_done (vs : List Bool) (u : Bool) (s : State) : (levelsMoved vs u s).done = s.done := rfl
@[simp] theorem levelsMoved_rsp (vs : List Bool) (u : Bool) (s : State) : (levelsMoved vs u s).rsp = s.rsp := rfl
@[simp] theorem levelsMoved_wire (vs : List Bool) (u : Bool) (s : State) : (levelsMoved vs u s).wire = s.wire := rfl
@[simp] theorem levelsMoved_pastWires (vs : List Bool) (u : Bool) (s : State) : (levelsMoved vs u s).pastWires = s.pastWires := rfl
@[simp] theorem levelsMoved_responses (vs : List Bool) (u : Bool) (s : State) : (levelsMoved vs u s).responses = s.responses := rfl
@[simp] theorem levelsMoved_program (vs : List Bool) (u : Bool) (s : State) : (levelsMoved vs u s).program = s.program := rfl
@[simp] theorem levelsMoved_todo (vs : List Bool) (u : Bool) (s : State) : (levelsMoved vs u s).todo = s.todo := rfl
@[simp] theorem levelsMoved_pos (vs : List Bool) (u : Bool) (s : State) : (levelsMoved vs u s).pos = s.pos := rfl
@[simp] theorem levelsMoved_mem (vs : List Bool) (u : Bool) (s : State) : (levelsMoved vs u s).mem = s.mem := rfl
@[simp] theorem levelsMoved_turns (vs : List Bool) (u : Bool) (s : State) : (levelsMoved vs u s).turns = s.turns := rfl
@[simp] theorem levelsMoved_draws (vs : List Bool) (u : Bool) (s : State) : (levelsMoved vs u s).draws = s.draws := rfl

/-! ### uartDrain -/

@[simp] theorem uartDrain_acc (s : State) : (uartDrain s).acc = s.acc := rfl
@[simp] theorem uartDrain_accWritten (s : State) : (uartDrain s).accWritten = s.accWritten := rfl
@[simp] theorem uartDrain_phase (s : State) : (uartDrain s).phase = s.phase := rfl
@[simp] theorem uartDrain_pend (s : State) : (uartDrain s).pend = s.pend := rfl
@[simp] theorem uartDrain_guardCnt (s : State) : (uartDrain s).guardCnt = s.guardCnt := rfl
@[simp] theorem uartDrain_txEmpty (s : State) : (uartDrain s).txEmpty = true := rfl
@[simp] theorem uartDrain_fcNrdy (s : State) : (uartDrain s).fcNrdy = s.fcNrdy := rfl
@[simp] theorem uartDrain_fcUnsettled (s : State) : (uartDrain s).fcUnsettled = s.fcUnsettled := rfl
@[simp] theorem uartDrain_txWr (s : State) : (uartDrain s).txWr = s.txWr := rfl
@[simp] theorem uartDrain_txData (s : State) : (uartDrain s).txData = s.txData := rfl
@[simp] theorem uartDrain_done (s : State) : (uartDrain s).done = s.done := rfl
@[simp] theorem uartDrain_rsp (s : State) : (uartDrain s).rsp = s.rsp := rfl
@[simp] theorem uartDrain_wire (s : State) : (uartDrain s).wire = s.wire := rfl
@[simp] theorem uartDrain_pastWires (s : State) : (uartDrain s).pastWires = s.pastWires := rfl
@[simp] theorem uartDrain_responses (s : State) : (uartDrain s).responses = s.responses := rfl
@[simp] theorem uartDrain_program (s : State) : (uartDrain s).program = s.program := rfl
@[simp] theorem uartDrain_todo (s : State) : (uartDrain s).todo = s.todo := rfl
@[simp] theorem uartDrain_pos (s : State) : (uartDrain s).pos = s.pos := rfl
@[simp] theorem uartDrain_mem (s : State) : (uartDrain s).mem = s.mem := rfl
@[simp] theorem uartDrain_turns (s : State) : (uartDrain s).turns = s.turns := rfl
@[simp] theorem uartDrain_draws (s : State) : (uartDrain s).draws = s.draws := rfl

/-! ### dropTurn -/

@[simp] theorem dropTurn_acc (s : State) : (s.dropTurn).acc = s.acc := rfl
@[simp] theorem dropTurn_accWritten (s : State) : (s.dropTurn).accWritten = s.accWritten := rfl
@[simp] theorem dropTurn_phase (s : State) : (s.dropTurn).phase = s.phase := rfl
@[simp] theorem dropTurn_pend (s : State) : (s.dropTurn).pend = s.pend := rfl
@[simp] theorem dropTurn_guardCnt (s : State) : (s.dropTurn).guardCnt = s.guardCnt := rfl
@[simp] theorem dropTurn_txEmpty (s : State) : (s.dropTurn).txEmpty = s.txEmpty := rfl
@[simp] theorem dropTurn_fcNrdy (s : State) : (s.dropTurn).fcNrdy = s.fcNrdy := rfl
@[simp] theorem dropTurn_fcUnsettled (s : State) : (s.dropTurn).fcUnsettled = s.fcUnsettled := rfl
@[simp] theorem dropTurn_txWr (s : State) : (s.dropTurn).txWr = s.txWr := rfl
@[simp] theorem dropTurn_txData (s : State) : (s.dropTurn).txData = s.txData := rfl
@[simp] theorem dropTurn_done (s : State) : (s.dropTurn).done = s.done := rfl
@[simp] theorem dropTurn_rsp (s : State) : (s.dropTurn).rsp = s.rsp := rfl
@[simp] theorem dropTurn_wire (s : State) : (s.dropTurn).wire = s.wire := rfl
@[simp] theorem dropTurn_pastWires (s : State) : (s.dropTurn).pastWires = s.pastWires := rfl
@[simp] theorem dropTurn_responses (s : State) : (s.dropTurn).responses = s.responses := rfl
@[simp] theorem dropTurn_program (s : State) : (s.dropTurn).program = s.program := rfl
@[simp] theorem dropTurn_todo (s : State) : (s.dropTurn).todo = s.todo := rfl
@[simp] theorem dropTurn_pos (s : State) : (s.dropTurn).pos = s.pos := rfl
@[simp] theorem dropTurn_mem (s : State) : (s.dropTurn).mem = s.mem := rfl
@[simp] theorem dropTurn_turns (s : State) : (s.dropTurn).turns = s.turns.tail := rfl
@[simp] theorem dropTurn_draws (s : State) : (s.dropTurn).draws = s.draws := rfl

/-! ### presentNext -/

@[simp] theorem presentNext_acc (w : Word) (s : State) : (presentNext w s).acc = s.acc := rfl
@[simp] theorem presentNext_accWritten (w : Word) (s : State) : (presentNext w s).accWritten = s.accWritten := rfl
@[simp] theorem presentNext_phase (w : Word) (s : State) : (presentNext w s).phase = .idle := rfl
@[simp] theorem presentNext_pend (w : Word) (s : State) : (presentNext w s).pend = s.pend := rfl
@[simp] theorem presentNext_guardCnt (w : Word) (s : State) : (presentNext w s).guardCnt = s.guardCnt := rfl
@[simp] theorem presentNext_txEmpty (w : Word) (s : State) : (presentNext w s).txEmpty = s.txEmpty := rfl
@[simp] theorem presentNext_fcNrdy (w : Word) (s : State) : (presentNext w s).fcNrdy = s.fcNrdy := rfl
@[simp] theorem presentNext_fcUnsettled (w : Word) (s : State) : (presentNext w s).fcUnsettled = s.fcUnsettled := rfl
@[simp] theorem presentNext_txWr (w : Word) (s : State) : (presentNext w s).txWr = s.txWr := rfl
@[simp] theorem presentNext_txData (w : Word) (s : State) : (presentNext w s).txData = s.txData := rfl
@[simp] theorem presentNext_done (w : Word) (s : State) : (presentNext w s).done = s.done := rfl
@[simp] theorem presentNext_rsp (w : Word) (s : State) : (presentNext w s).rsp = s.rsp := rfl
@[simp] theorem presentNext_wire (w : Word) (s : State) : (presentNext w s).wire = s.wire := rfl
@[simp] theorem presentNext_pastWires (w : Word) (s : State) : (presentNext w s).pastWires = s.pastWires := rfl
@[simp] theorem presentNext_responses (w : Word) (s : State) : (presentNext w s).responses = s.responses := rfl
@[simp] theorem presentNext_program (w : Word) (s : State) : (presentNext w s).program = s.program := rfl
@[simp] theorem presentNext_todo (w : Word) (s : State) : (presentNext w s).todo = .present w :: s.todo := rfl
@[simp] theorem presentNext_pos (w : Word) (s : State) : (presentNext w s).pos = s.pos := rfl
@[simp] theorem presentNext_mem (w : Word) (s : State) : (presentNext w s).mem = s.mem := rfl
@[simp] theorem presentNext_turns (w : Word) (s : State) : (presentNext w s).turns = .master [] :: s.turns := rfl
@[simp] theorem presentNext_draws (w : Word) (s : State) : (presentNext w s).draws = s.draws := rfl

/-! ### setTodo -/

@[simp] theorem setTodo_acc (todo : List MasterOp) (s : State) : (setTodo todo s).acc = s.acc := rfl
@[simp] theorem setTodo_accWritten (todo : List MasterOp) (s : State) : (setTodo todo s).accWritten = s.accWritten := rfl
@[simp] theorem setTodo_phase (todo : List MasterOp) (s : State) : (setTodo todo s).phase = s.phase := rfl
@[simp] theorem setTodo_pend (todo : List MasterOp) (s : State) : (setTodo todo s).pend = s.pend := rfl
@[simp] theorem setTodo_guardCnt (todo : List MasterOp) (s : State) : (setTodo todo s).guardCnt = s.guardCnt := rfl
@[simp] theorem setTodo_txEmpty (todo : List MasterOp) (s : State) : (setTodo todo s).txEmpty = s.txEmpty := rfl
@[simp] theorem setTodo_fcNrdy (todo : List MasterOp) (s : State) : (setTodo todo s).fcNrdy = s.fcNrdy := rfl
@[simp] theorem setTodo_fcUnsettled (todo : List MasterOp) (s : State) : (setTodo todo s).fcUnsettled = s.fcUnsettled := rfl
@[simp] theorem setTodo_txWr (todo : List MasterOp) (s : State) : (setTodo todo s).txWr = s.txWr := rfl
@[simp] theorem setTodo_txData (todo : List MasterOp) (s : State) : (setTodo todo s).txData = s.txData := rfl
@[simp] theorem setTodo_done (todo : List MasterOp) (s : State) : (setTodo todo s).done = s.done := rfl
@[simp] theorem setTodo_rsp (todo : List MasterOp) (s : State) : (setTodo todo s).rsp = s.rsp := rfl
@[simp] theorem setTodo_wire (todo : List MasterOp) (s : State) : (setTodo todo s).wire = s.wire := rfl
@[simp] theorem setTodo_pastWires (todo : List MasterOp) (s : State) : (setTodo todo s).pastWires = s.pastWires := rfl
@[simp] theorem setTodo_responses (todo : List MasterOp) (s : State) : (setTodo todo s).responses = s.responses := rfl
@[simp] theorem setTodo_program (todo : List MasterOp) (s : State) : (setTodo todo s).program = s.program := rfl
@[simp] theorem setTodo_todo (todo : List MasterOp) (s : State) : (setTodo todo s).todo = todo := rfl
@[simp] theorem setTodo_pos (todo : List MasterOp) (s : State) : (setTodo todo s).pos = s.pos := rfl
@[simp] theorem setTodo_mem (todo : List MasterOp) (s : State) : (setTodo todo s).mem = s.mem := rfl
@[simp] theorem setTodo_turns (todo : List MasterOp) (s : State) : (setTodo todo s).turns = s.turns := rfl
@[simp] theorem setTodo_draws (todo : List MasterOp) (s : State) : (setTodo todo s).draws = s.draws := rfl

/-! ### actOwn -/

@[simp] theorem actOwn_acc (todo : List MasterOp) (m : Memory) (s : State) : (actOwn todo m s).acc = s.acc := rfl
@[simp] theorem actOwn_accWritten (todo : List MasterOp) (m : Memory) (s : State) : (actOwn todo m s).accWritten = s.accWritten := rfl
@[simp] theorem actOwn_phase (todo : List MasterOp) (m : Memory) (s : State) : (actOwn todo m s).phase = s.phase := rfl
@[simp] theorem actOwn_pend (todo : List MasterOp) (m : Memory) (s : State) : (actOwn todo m s).pend = s.pend := rfl
@[simp] theorem actOwn_guardCnt (todo : List MasterOp) (m : Memory) (s : State) : (actOwn todo m s).guardCnt = s.guardCnt := rfl
@[simp] theorem actOwn_txEmpty (todo : List MasterOp) (m : Memory) (s : State) : (actOwn todo m s).txEmpty = s.txEmpty := rfl
@[simp] theorem actOwn_fcNrdy (todo : List MasterOp) (m : Memory) (s : State) : (actOwn todo m s).fcNrdy = s.fcNrdy := rfl
@[simp] theorem actOwn_fcUnsettled (todo : List MasterOp) (m : Memory) (s : State) : (actOwn todo m s).fcUnsettled = s.fcUnsettled := rfl
@[simp] theorem actOwn_txWr (todo : List MasterOp) (m : Memory) (s : State) : (actOwn todo m s).txWr = s.txWr := rfl
@[simp] theorem actOwn_txData (todo : List MasterOp) (m : Memory) (s : State) : (actOwn todo m s).txData = s.txData := rfl
@[simp] theorem actOwn_done (todo : List MasterOp) (m : Memory) (s : State) : (actOwn todo m s).done = s.done := rfl
@[simp] theorem actOwn_rsp (todo : List MasterOp) (m : Memory) (s : State) : (actOwn todo m s).rsp = s.rsp := rfl
@[simp] theorem actOwn_wire (todo : List MasterOp) (m : Memory) (s : State) : (actOwn todo m s).wire = s.wire := rfl
@[simp] theorem actOwn_pastWires (todo : List MasterOp) (m : Memory) (s : State) : (actOwn todo m s).pastWires = s.pastWires := rfl
@[simp] theorem actOwn_responses (todo : List MasterOp) (m : Memory) (s : State) : (actOwn todo m s).responses = s.responses := rfl
@[simp] theorem actOwn_program (todo : List MasterOp) (m : Memory) (s : State) : (actOwn todo m s).program = s.program := rfl
@[simp] theorem actOwn_todo (todo : List MasterOp) (m : Memory) (s : State) : (actOwn todo m s).todo = todo := rfl
@[simp] theorem actOwn_pos (todo : List MasterOp) (m : Memory) (s : State) : (actOwn todo m s).pos = s.pos := rfl
@[simp] theorem actOwn_mem (todo : List MasterOp) (m : Memory) (s : State) : (actOwn todo m s).mem = m := rfl
@[simp] theorem actOwn_turns (todo : List MasterOp) (m : Memory) (s : State) : (actOwn todo m s).turns = s.turns := rfl
@[simp] theorem actOwn_draws (todo : List MasterOp) (m : Memory) (s : State) : (actOwn todo m s).draws = s.draws := rfl

/-! ### zeroAcc -/

@[simp] theorem zeroAcc_acc (s : State) : (zeroAcc s).acc = 0 := rfl
@[simp] theorem zeroAcc_accWritten (s : State) : (zeroAcc s).accWritten = true := rfl
@[simp] theorem zeroAcc_phase (s : State) : (zeroAcc s).phase = s.phase := rfl
@[simp] theorem zeroAcc_pend (s : State) : (zeroAcc s).pend = s.pend := rfl
@[simp] theorem zeroAcc_guardCnt (s : State) : (zeroAcc s).guardCnt = s.guardCnt := rfl
@[simp] theorem zeroAcc_txEmpty (s : State) : (zeroAcc s).txEmpty = s.txEmpty := rfl
@[simp] theorem zeroAcc_fcNrdy (s : State) : (zeroAcc s).fcNrdy = s.fcNrdy := rfl
@[simp] theorem zeroAcc_fcUnsettled (s : State) : (zeroAcc s).fcUnsettled = s.fcUnsettled := rfl
@[simp] theorem zeroAcc_txWr (s : State) : (zeroAcc s).txWr = s.txWr := rfl
@[simp] theorem zeroAcc_txData (s : State) : (zeroAcc s).txData = s.txData := rfl
@[simp] theorem zeroAcc_done (s : State) : (zeroAcc s).done = s.done := rfl
@[simp] theorem zeroAcc_rsp (s : State) : (zeroAcc s).rsp = s.rsp := rfl
@[simp] theorem zeroAcc_wire (s : State) : (zeroAcc s).wire = s.wire := rfl
@[simp] theorem zeroAcc_pastWires (s : State) : (zeroAcc s).pastWires = s.pastWires := rfl
@[simp] theorem zeroAcc_responses (s : State) : (zeroAcc s).responses = s.responses := rfl
@[simp] theorem zeroAcc_program (s : State) : (zeroAcc s).program = s.program := rfl
@[simp] theorem zeroAcc_todo (s : State) : (zeroAcc s).todo = s.todo := rfl
@[simp] theorem zeroAcc_pos (s : State) : (zeroAcc s).pos = s.pos := rfl
@[simp] theorem zeroAcc_mem (s : State) : (zeroAcc s).mem = s.mem := rfl
@[simp] theorem zeroAcc_turns (s : State) : (zeroAcc s).turns = s.turns := rfl
@[simp] theorem zeroAcc_draws (s : State) : (zeroAcc s).draws = s.draws := rfl

/-! ### setAcc -/

@[simp] theorem setAcc_acc (v : Byte) (s : State) : (setAcc v s).acc = v := rfl
@[simp] theorem setAcc_accWritten (v : Byte) (s : State) : (setAcc v s).accWritten = s.accWritten := rfl
@[simp] theorem setAcc_phase (v : Byte) (s : State) : (setAcc v s).phase = s.phase := rfl
@[simp] theorem setAcc_pend (v : Byte) (s : State) : (setAcc v s).pend = s.pend := rfl
@[simp] theorem setAcc_guardCnt (v : Byte) (s : State) : (setAcc v s).guardCnt = s.guardCnt := rfl
@[simp] theorem setAcc_txEmpty (v : Byte) (s : State) : (setAcc v s).txEmpty = s.txEmpty := rfl
@[simp] theorem setAcc_fcNrdy (v : Byte) (s : State) : (setAcc v s).fcNrdy = s.fcNrdy := rfl
@[simp] theorem setAcc_fcUnsettled (v : Byte) (s : State) : (setAcc v s).fcUnsettled = s.fcUnsettled := rfl
@[simp] theorem setAcc_txWr (v : Byte) (s : State) : (setAcc v s).txWr = s.txWr := rfl
@[simp] theorem setAcc_txData (v : Byte) (s : State) : (setAcc v s).txData = s.txData := rfl
@[simp] theorem setAcc_done (v : Byte) (s : State) : (setAcc v s).done = s.done := rfl
@[simp] theorem setAcc_rsp (v : Byte) (s : State) : (setAcc v s).rsp = s.rsp := rfl
@[simp] theorem setAcc_wire (v : Byte) (s : State) : (setAcc v s).wire = s.wire := rfl
@[simp] theorem setAcc_pastWires (v : Byte) (s : State) : (setAcc v s).pastWires = s.pastWires := rfl
@[simp] theorem setAcc_responses (v : Byte) (s : State) : (setAcc v s).responses = s.responses := rfl
@[simp] theorem setAcc_program (v : Byte) (s : State) : (setAcc v s).program = s.program := rfl
@[simp] theorem setAcc_todo (v : Byte) (s : State) : (setAcc v s).todo = s.todo := rfl
@[simp] theorem setAcc_pos (v : Byte) (s : State) : (setAcc v s).pos = s.pos := rfl
@[simp] theorem setAcc_mem (v : Byte) (s : State) : (setAcc v s).mem = s.mem := rfl
@[simp] theorem setAcc_turns (v : Byte) (s : State) : (setAcc v s).turns = s.turns := rfl
@[simp] theorem setAcc_draws (v : Byte) (s : State) : (setAcc v s).draws = s.draws := rfl

/-! ### acceptSend -/

@[simp] theorem acceptSend_acc (b : Byte) (s : State) : (acceptSend b s).acc = s.acc := rfl
@[simp] theorem acceptSend_accWritten (b : Byte) (s : State) : (acceptSend b s).accWritten = s.accWritten := rfl
@[simp] theorem acceptSend_phase (b : Byte) (s : State) : (acceptSend b s).phase = .wait := rfl
@[simp] theorem acceptSend_pend (b : Byte) (s : State) : (acceptSend b s).pend = b := rfl
@[simp] theorem acceptSend_guardCnt (b : Byte) (s : State) : (acceptSend b s).guardCnt = s.guardCnt := rfl
@[simp] theorem acceptSend_txEmpty (b : Byte) (s : State) : (acceptSend b s).txEmpty = s.txEmpty := rfl
@[simp] theorem acceptSend_fcNrdy (b : Byte) (s : State) : (acceptSend b s).fcNrdy = s.fcNrdy := rfl
@[simp] theorem acceptSend_fcUnsettled (b : Byte) (s : State) : (acceptSend b s).fcUnsettled = s.fcUnsettled := rfl
@[simp] theorem acceptSend_txWr (b : Byte) (s : State) : (acceptSend b s).txWr = s.txWr := rfl
@[simp] theorem acceptSend_txData (b : Byte) (s : State) : (acceptSend b s).txData = s.txData := rfl
@[simp] theorem acceptSend_done (b : Byte) (s : State) : (acceptSend b s).done = s.done := rfl
@[simp] theorem acceptSend_rsp (b : Byte) (s : State) : (acceptSend b s).rsp = s.rsp := rfl
@[simp] theorem acceptSend_wire (b : Byte) (s : State) : (acceptSend b s).wire = s.wire := rfl
@[simp] theorem acceptSend_pastWires (b : Byte) (s : State) : (acceptSend b s).pastWires = s.pastWires := rfl
@[simp] theorem acceptSend_responses (b : Byte) (s : State) : (acceptSend b s).responses = s.responses := rfl
@[simp] theorem acceptSend_program (b : Byte) (s : State) : (acceptSend b s).program = s.program := rfl
@[simp] theorem acceptSend_todo (b : Byte) (s : State) : (acceptSend b s).todo = s.todo := rfl
@[simp] theorem acceptSend_pos (b : Byte) (s : State) : (acceptSend b s).pos = s.pos := rfl
@[simp] theorem acceptSend_mem (b : Byte) (s : State) : (acceptSend b s).mem = s.mem := rfl
@[simp] theorem acceptSend_turns (b : Byte) (s : State) : (acceptSend b s).turns = s.turns := rfl
@[simp] theorem acceptSend_draws (b : Byte) (s : State) : (acceptSend b s).draws = s.draws := rfl

end Sys2Proof.Machine
end

