-- ==== Sys2Proof/Laws/Ops.lean ====
section
/-! SUPPORT. What each shared operation can do, said once: the master's memory, the command port, a turn, a step. -/

namespace Sys2Proof.Machine

/-! ### The master's memory -/

@[simp] theorem Memory.read_nil (a : Nat) : Memory.read [] a = none := rfl

theorem Memory.read_write_same (m : Memory) (a : Nat) (v : Byte) : (Memory.write m a v).read a = some v := by
  induction m with
  | nil => simp [Memory.write, Memory.read]
  | cons c rest ih =>
    obtain ⟨b, w⟩ := c
    by_cases h1 : a < b
    · simp [Memory.write, Memory.read, h1]
    · by_cases h2 : a = b
      · simp [Memory.write, Memory.read, h2]
      · simp [Memory.write, Memory.read, h1, h2, ih]

theorem Memory.read_write_other (m : Memory) {a b : Nat} (v : Byte) (h : b ≠ a) :
    (Memory.write m a v).read b = m.read b := by
  induction m with
  | nil => simp [Memory.write, Memory.read, h]
  | cons c rest ih =>
    obtain ⟨k, w⟩ := c
    by_cases h1 : a < k
    · simp [Memory.write, Memory.read, h1, h]
    · by_cases h2 : a = k
      · subst h2
        simp [Memory.write, Memory.read, h]
      · simp [Memory.write, Memory.read, h1, h2, ih]

theorem Memory.above_write {m : Memory} {k a : Nat} (v : Byte) (hm : Memory.above k m = true) (ha : k < a) :
    Memory.above k (Memory.write m a v) = true := by
  induction m with
  | nil => simp [Memory.write, Memory.above, ha]
  | cons c rest ih =>
    obtain ⟨b, w⟩ := c
    simp only [Memory.above, List.all_cons, Bool.and_eq_true, decide_eq_true_eq] at hm ih ⊢
    by_cases h1 : a < b
    · simp [Memory.write, h1, ha, hm.1, hm.2]
    · by_cases h2 : a = b
      · subst h2
        simp [Memory.write, ha, hm.2]
      · simp [Memory.write, h1, h2, hm.1, ih hm.2]

theorem Memory.above_of_lt {m : Memory} {j k : Nat} (h : j < k) (hm : Memory.above k m = true) :
    Memory.above j m = true := by
  simp only [Memory.above, List.all_eq_true, decide_eq_true_eq] at hm ⊢
  exact fun c hc => lt_trans h (hm c hc)

/-- Every write keeps the canonical form. -/
theorem Memory.write_wf {m : Memory} (a : Nat) (v : Byte) (hm : m.wf = true) : (Memory.write m a v).wf = true := by
  induction m with
  | nil => rfl
  | cons c rest ih =>
    obtain ⟨b, w⟩ := c
    simp only [Memory.wf, Bool.and_eq_true] at hm
    by_cases h1 : a < b
    · have hab : Memory.above a ((b, w) :: rest) = true := by
        have := Memory.above_of_lt h1 hm.1
        simp only [Memory.above, List.all_cons, Bool.and_eq_true, decide_eq_true_eq] at this ⊢
        exact ⟨h1, this⟩
      simp [Memory.write, Memory.wf, h1, hab, hm.1, hm.2]
    · by_cases h2 : a = b
      · subst h2
        simp [Memory.write, Memory.wf, hm.1, hm.2]
      · have hlt : b < a := by omega
        simp [Memory.write, Memory.wf, h1, h2, Memory.above_write v hm.1 hlt, ih hm.2]

theorem reset_mem_wf : State.reset.mem.wf = true := rfl

/-! ### The command port -/

theorem cmdReady_iff (s : State) : s.cmdReady = true ↔ s.phase = .idle := by
  simp [State.cmdReady, State.busy]

theorem whenReady_idle {s : State} (h : s.phase = .idle) (k : State → State) : whenReady s k = .next (k s) := by
  simp [whenReady, (cmdReady_iff s).2 h]

theorem whenReady_busy {s : State} (h : s.phase ≠ .idle) (k : State → State) : whenReady s k = .next s := by
  simp [whenReady, cmdReady_iff, h]

/-! ### The five commands, each as what it does where the port is ready -/

theorem exec_csumReset (s : State) : exec .csumReset s = whenReady s fun s => complete none (zeroAcc s) := rfl

theorem exec_csumUpdate (b : Byte) (s : State) :
    exec (.csumUpdate b) s = whenReady s fun s => complete (some (updated s.acc b)) (setAcc (updated s.acc b) s) := rfl

theorem exec_csumValue (s : State) : exec .csumValue s = whenReady s fun s => complete (some s.acc) s := rfl

theorem exec_txSendByte (b : Byte) (s : State) : exec (.txSendByte b) s = whenReady s (acceptSend b) := rfl

theorem exec_fcStatus (s : State) :
    exec .fcStatus s = whenReady s fun s => complete (some (statusByte s.txEmpty s.sampleFc)) (afterSample s) := rfl

/-! ### Samples and the gate's condition do not look at the schedule or the strobes -/

@[simp] theorem sampleFc_strobesLow (s : State) : (strobesLow s).sampleFc = s.sampleFc := rfl

@[simp] theorem sampleFc_dropTurn (s : State) : s.dropTurn.sampleFc = s.sampleFc := rfl

@[simp] theorem gateOpen_strobesLow (s : State) : (strobesLow s).gateOpen = s.gateOpen := rfl

@[simp] theorem gateOpen_dropTurn (s : State) : s.dropTurn.gateOpen = s.gateOpen := rfl

theorem gateOpen_iff (s : State) : s.gateOpen = true ↔ s.sampleFc = false ∧ s.txEmpty = true := by
  simp [State.gateOpen]

/-! ### A level that moves inside a step -/

@[simp] theorem levelsMove_nil (s : State) : levelsMove [] s = s := by simp [levelsMove]

/-- With nothing moving, the end of a step changes nothing (no step but a reset unsettles a settled level). -/
theorem levelsMoved_nil {s : State} {u : Bool} (h : s.fcUnsettled = true → u = true) : levelsMoved [] u s = s := by
  have e : (u && s.fcUnsettled) = s.fcUnsettled := by cases hs : s.fcUnsettled <;> simp_all
  simp [levelsMoved, e]

/-- In the block's turn the sample is the one the coming step sees. -/
theorem sampleFc_block {s : State} {vs : List Bool} (h : s.nextTurn = .block vs) :
    (levelsMove vs (strobesLow s.dropTurn)).sampleFc = s.seenFc := by
  simp only [State.seenFc, h]; rfl

/-- In the master's turn too. -/
theorem sampleFc_master {s : State} {vs : List Bool} (h : s.nextTurn = .master vs) :
    (levelsMove vs (strobesLow s.dropTurn)).sampleFc = s.seenFc := by
  simp only [State.seenFc, h]; rfl

/-- What a step sees is a level that the far end holds within the step, where the first sample after a reset is past. -/
theorem seenFc_mem {s : State} (h : s.fcUnsettled = false) : s.seenFc ∈ s.fcNrdy :: s.nextTurn.drives := by
  unfold State.seenFc State.sampleFc
  by_cases hm : s.nextTurn.drives.any (· != s.fcNrdy) = true
  · obtain ⟨v, hv, hne⟩ := List.any_eq_true.1 hm
    cases hx : (bif (levelsMove s.nextTurn.drives s).fcUnsettled then Config.freeSample (levelsMove s.nextTurn.drives s).draws
        else (levelsMove s.nextTurn.drives s).fcNrdy) <;> cases hf : s.fcNrdy <;> cases v <;> simp_all
  · simp [h, hm]

/-! ### What the master does next depends on its program, memory and last response alone -/

@[simp] theorem masterAct_strobesLow (s : State) : (strobesLow s).masterAct = s.masterAct := rfl

@[simp] theorem masterAct_levelsMove (vs : List Bool) (s : State) : (levelsMove vs s).masterAct = s.masterAct := rfl

@[simp] theorem masterAct_dropTurn (s : State) : s.dropTurn.masterAct = s.masterAct := rfl

/-- An action of the master's own leaves its memory as it is or writes one byte. -/
theorem actOf_own_mem {m m' : Memory} {last : Byte} {todo todo' : List MasterOp}
    (h : actOf m last todo = .own todo' m') : m' = m ∨ ∃ a v, m' = m.write a v := by
  cases todo with
  | nil => cases h
  | cons o rest =>
    cases o with
    | present w => cases h
    | updateFrom a => simp only [actOf, withByte] at h; split at h <;> cases h
    | sendFrom a => simp only [actOf, withByte] at h; split at h <;> cases h
    | store a v => cases h; exact .inr ⟨a, v, rfl⟩
    | storeRsp a => cases h; exact .inr ⟨a, last, rfl⟩
    | rearm => cases h; exact .inl rfl
    | settleDelay => cases h; exact .inl rfl
    | sendString a =>
      simp only [actOf, withByte] at h
      split at h
      · split at h <;> cases h
        exact .inl rfl
      · cases h
    | frameCsum a => cases h; exact .inl rfl
    | frameSend a => cases h; exact .inl rfl

/-- The master stops only where it reads a byte of its memory that nothing has written. -/
theorem actOf_stop {m : Memory} {last : Byte} {todo : List MasterOp} {r : Fault}
    (h : actOf m last todo = .stop r) : ∃ a, r = .unwrittenByte a ∧ m.read a = none := by
  have read : ∀ a k, (∀ v, k v ≠ .stop r) → withByte m a k = .stop r → ∃ a, r = .unwrittenByte a ∧ m.read a = none := by
    intro a k hk hs
    unfold withByte at hs
    cases hm : m.read a with
    | none => rw [hm] at hs; injection hs with hs; exact ⟨a, hs.symm, hm⟩
    | some v => rw [hm] at hs; exact absurd hs (hk v)
  cases todo with
  | nil => cases h
  | cons o rest =>
    cases o with
    | updateFrom a => exact read a _ (fun _ => by simp) h
    | sendFrom a => exact read a _ (fun _ => by simp) h
    | sendString a => exact read a _ (fun v => by split <;> simp) h
    | _ => cases h

/-! ### The master's copy of the last response depends on the responses alone -/

theorem lastResponse_eq {s t : State} (h : s.responses = t.responses) : s.lastResponse = t.lastResponse := by
  simp [State.lastResponse, h]

@[simp] theorem lastResponse_strobesLow (s : State) : (strobesLow s).lastResponse = s.lastResponse := rfl
@[simp] theorem lastResponse_dropTurn (s : State) : s.dropTurn.lastResponse = s.lastResponse := rfl
@[simp] theorem lastResponse_levelsMove (vs : List Bool) (s : State) : (levelsMove vs s).lastResponse = s.lastResponse := rfl
@[simp] theorem lastResponse_levelsMoved (vs : List Bool) (u : Bool) (s : State) :
    (levelsMoved vs u s).lastResponse = s.lastResponse := rfl

/-! ### Turns and steps, inverted -/

/-- The master's turn, inverted: the port is not ready or there is nothing to do; or an action of its own; or a command. -/
theorem masterTurn_next {s t : State} (h : masterTurn s = .next t) :
    (t = s ∧ (s.phase ≠ .idle ∨ s.masterAct = .rest)) ∨
    (s.phase = .idle ∧ ∃ todo m, s.masterAct = .own todo m ∧ t = actOwn todo m s) ∨
    (s.phase = .idle ∧ ∃ w todo i, s.masterAct = .present w todo ∧ decode w = .ok i ∧
      exec i (setTodo todo s) = .next t) := by
  unfold masterTurn at h
  by_cases hp : s.phase = .idle
  · rw [if_pos ((cmdReady_iff s).2 hp)] at h
    cases ha : s.masterAct with
    | rest => rw [ha] at h; injection h with h; exact .inl ⟨h.symm, .inr rfl⟩
    | own todo m => rw [ha] at h; injection h with h; exact .inr (.inl ⟨hp, todo, m, rfl, h.symm⟩)
    | stop r => rw [ha] at h; cases h
    | present w todo =>
      simp only [ha, presentWord] at h
      cases hd : decode w with
      | error why => rw [hd] at h; cases h
      | ok i => rw [hd] at h; exact .inr (.inr ⟨hp, w, todo, i, rfl, hd, h⟩)
  · rw [if_neg (by simp [cmdReady_iff, hp])] at h
    injection h with h
    exact .inl ⟨h.symm, .inl hp⟩

theorem onNext_next {f : State → State} {o : Host.Outcome State Fault Refusal} {t : State} :
    onNext f o = .next t ↔ ∃ u, o = .next u ∧ f u = t := by
  cases o <;> simp [onNext]

/-- A step, inverted: a reset, a block step, an environment step, or the master's turn. -/
theorem step_next {s t : State} (h : step s = .next t) :
    (s.nextTurn = .reset ∧ t = restart s.dropTurn) ∨
    (∃ vs, s.nextTurn = .block vs ∧
      t = levelsMoved vs s.fcUnsettled (blockStep (levelsMove vs (strobesLow s.dropTurn)))) ∨
    (s.nextTurn = .guardTick ∧ t = guardTick (strobesLow s.dropTurn)) ∨
    (∃ v, s.nextTurn = .fcDrive v ∧ t = fcDrive v (strobesLow s.dropTurn)) ∨
    (s.nextTurn = .uartDrain ∧ t = uartDrain (strobesLow s.dropTurn)) ∨
    (∃ vs u, s.nextTurn = .master vs ∧ masterTurn (levelsMove vs (strobesLow s.dropTurn)) = .next u ∧
      t = levelsMoved vs s.fcUnsettled u) := by
  unfold step takeTurn at h
  cases hn : s.nextTurn with
  | master vs =>
    rw [hn] at h
    obtain ⟨u, hu, rfl⟩ := onNext_next.1 h
    exact .inr (.inr (.inr (.inr (.inr ⟨vs, u, rfl, hu, rfl⟩))))
  | _ => rw [hn] at h; simp_all [eq_comm]

/-! ### The block's step, one equation per row of R96 -/

theorem blockStep_idle {s : State} (h : s.phase = .idle) : blockStep s = s := by simp [blockStep, h]

theorem blockStep_open {s : State} (h : s.phase = .wait) (hg : s.gateOpen = true) :
    blockStep s = writePending (afterSample s) := by simp [blockStep, h, waitStep, hg]

theorem blockStep_shut {s : State} (h : s.phase = .wait) (hg : s.gateOpen = false) :
    blockStep s = afterSample s := by simp [blockStep, h, waitStep, hg]

theorem blockStep_guard {s : State} (h : s.phase = .guard) : blockStep s = guardStep s := by simp [blockStep, h]

/-- The block's step, inverted. -/
theorem blockStep_cases (s : State) :
    (s.phase = .idle ∧ blockStep s = s) ∨
    (s.phase = .wait ∧ s.gateOpen = true ∧ blockStep s = writePending (afterSample s)) ∨
    (s.phase = .wait ∧ s.gateOpen = false ∧ blockStep s = afterSample s) ∨
    (s.phase = .guard ∧ blockStep s = guardStep s) := by
  cases h : s.phase with
  | idle => exact .inl ⟨rfl, blockStep_idle h⟩
  | guard => exact .inr (.inr (.inr ⟨rfl, blockStep_guard h⟩))
  | wait =>
    cases hg : s.gateOpen with
    | true => exact .inr (.inl ⟨rfl, rfl, blockStep_open h hg⟩)
    | false => exact .inr (.inr (.inl ⟨rfl, rfl, blockStep_shut h hg⟩))

/-- The block's step changes nothing of the master's side: memory, program and schedule. -/
theorem blockStep_master_side (s : State) :
    (blockStep s).mem = s.mem ∧ (blockStep s).program = s.program ∧ (blockStep s).todo = s.todo ∧
    (blockStep s).turns = s.turns := by
  rcases blockStep_cases s with ⟨-, e⟩ | ⟨-, -, e⟩ | ⟨-, -, e⟩ | ⟨-, e⟩ <;> rw [e] <;> simp

/-- A command leaves the schedule as it is. -/
theorem exec_turns {i : Instr} {s t : State} (h : exec i s = .next t) : t.turns = s.turns := by
  by_cases hp : s.phase = .idle
  · cases i <;>
      simp only [exec_csumReset, exec_csumUpdate, exec_csumValue, exec_txSendByte, exec_fcStatus, whenReady_idle hp] at h <;>
      injection h with h <;> subst h <;> rfl
  · cases i <;>
      simp only [exec_csumReset, exec_csumUpdate, exec_csumValue, exec_txSendByte, exec_fcStatus, whenReady_busy hp] at h <;>
      injection h with h <;> subst h <;> rfl

/-- Every step takes exactly one turn off the schedule, if there is one. -/
theorem step_turns {s t : State} (h : step s = .next t) : t.turns = s.turns.tail := by
  rcases step_next h with ⟨-, rfl⟩ | ⟨vs, -, rfl⟩ | ⟨-, rfl⟩ | ⟨v, -, rfl⟩ | ⟨-, rfl⟩ | ⟨vs, u, -, hm, rfl⟩
  · rfl
  · rw [levelsMoved_turns, (blockStep_master_side _).2.2.2]; rfl
  · rfl
  · rfl
  · rfl
  · rw [levelsMoved_turns]
    rcases masterTurn_next hm with ⟨rfl, -⟩ | ⟨-, todo, m, -, rfl⟩ | ⟨-, w, todo, i, -, -, hx⟩
    · rfl
    · rfl
    · rw [exec_turns hx]; rfl

end Sys2Proof.Machine
end

