-- ==== Sys2Proof/Laws/PerInstr.lean ====
section
/-! SUPPORT. What holds of every command as syntax. -/

namespace Sys2Proof.Laws.FormatFields

/-- The fields of a command are a legal format C word (30_encoding.md R47, R51). -/
def Statement (i : Instr) : Prop := i.fields.wf

theorem csumReset : Statement .csumReset := by unfold Statement; decide

theorem csumUpdate (b : Byte) : Statement (.csumUpdate b) := by
  simp [Statement, Instr.fields, FormatC.wf, FormatC.reserved, takesOperand]

theorem csumValue : Statement .csumValue := by unfold Statement; decide

theorem txSendByte (b : Byte) : Statement (.txSendByte b) := by
  simp [Statement, Instr.fields, FormatC.wf, FormatC.reserved, takesOperand]

theorem fcStatus : Statement .fcStatus := by unfold Statement; decide

end Sys2Proof.Laws.FormatFields
end

