-- ==== Sys2Proof/Laws/Runs.lean ====
section
/-! SUPPORT. Runs: how they begin, how they go on, and that a property every step keeps holds at their end. -/

namespace Sys2Proof.Machine

theorem reaches_zero {s t : State} : Reaches 0 s t ↔ s = t := by simp [Reaches, run]

theorem reaches_succ {k : Nat} {s t : State} : Reaches (k + 1) s t ↔ ∃ u, step s = .next u ∧ Reaches k u t := by
  simp only [Reaches, run]
  cases step s <;> simp

theorem reaches_add {j k : Nat} {s t u : State} (h₁ : Reaches j s t) (h₂ : Reaches k t u) : Reaches (j + k) s u := by
  induction j generalizing s with
  | zero => rw [reaches_zero.1 h₁]; simpa using h₂
  | succ j ih =>
    obtain ⟨v, hv, hr⟩ := reaches_succ.1 h₁
    rw [Nat.succ_add]
    exact reaches_succ.2 ⟨v, hv, ih hr⟩

/-- A property that every step keeps holds at the end of every run. -/
theorem reaches_keeps {P : State → Prop} (hstep : ∀ s t, P s → step s = .next t → P t) {k : Nat} {s t : State}
    (hs : P s) (h : Reaches k s t) : P t := by
  induction k generalizing s with
  | zero => exact reaches_zero.1 h ▸ hs
  | succ k ih =>
    obtain ⟨u, hu, hr⟩ := reaches_succ.1 h
    exact ih (hstep s u hs hu) hr

/-! ### The record and the byte in flight under the updates around a turn -/

@[simp] theorem view_strobesLow (s : State) : (strobesLow s).view = s.view := rfl
@[simp] theorem view_dropTurn (s : State) : s.dropTurn.view = s.view := rfl
@[simp] theorem view_levelsMove (vs : List Bool) (s : State) : (levelsMove vs s).view = s.view := rfl
@[simp] theorem view_levelsMoved (vs : List Bool) (u : Bool) (s : State) :
    (levelsMoved vs u s).view = s.view.moved vs := rfl

@[simp] theorem view_complete (r : Option Byte) (s : State) : (complete r s).view = s.view := rfl
@[simp] theorem view_setTodo (todo : List MasterOp) (s : State) : (setTodo todo s).view = s.view := rfl
@[simp] theorem view_actOwn (todo : List MasterOp) (m : Memory) (s : State) : (actOwn todo m s).view = s.view := rfl
@[simp] theorem view_afterSample (s : State) : (afterSample s).view = s.view := rfl

theorem inFlight_eq {s t : State} (hp : s.phase = t.phase) (hb : s.pend = t.pend) : s.inFlight = t.inFlight := by
  simp [State.inFlight, hp, hb]

@[simp] theorem inFlight_strobesLow (s : State) : (strobesLow s).inFlight = s.inFlight := rfl
@[simp] theorem inFlight_dropTurn (s : State) : s.dropTurn.inFlight = s.inFlight := rfl
@[simp] theorem inFlight_levelsMove (vs : List Bool) (s : State) : (levelsMove vs s).inFlight = s.inFlight := rfl
@[simp] theorem inFlight_levelsMoved (vs : List Bool) (u : Bool) (s : State) : (levelsMoved vs u s).inFlight = s.inFlight := rfl

/-! ### Safe and ended runs -/

theorem safeRun_succ {k : Nat} {s : State} :
    SafeRun (k + 1) s ↔ s.readsUnwrittenAcc = false ∧ ∃ t, step s = .next t ∧ SafeRun k t := Iff.rfl

theorem endedRun_zero {s t : State} : EndedRun 0 s t ↔ s = t ∧ t.AtEnd := by
  simp [EndedRun, SafeRun, reaches_zero]

theorem endedRun_succ {k : Nat} {s t : State} :
    EndedRun (k + 1) s t ↔ s.readsUnwrittenAcc = false ∧ ∃ u, step s = .next u ∧ EndedRun k u t := by
  simp only [EndedRun, safeRun_succ, reaches_succ]
  constructor
  · rintro ⟨⟨hr, u, hu, hs⟩, ⟨v, hv, h⟩, he⟩
    rw [hu] at hv
    injection hv with hv
    exact ⟨hr, u, hu, hs, hv ▸ h, he⟩
  · rintro ⟨hr, u, hu, hs, h, he⟩
    exact ⟨⟨hr, u, hu, hs⟩, ⟨u, hu, h⟩, he⟩

/-! ### Schedules without a reset -/

/-- The default schedule holds no reset turn. -/
theorem defaultTurn_ne_reset (s : State) : defaultTurn s ≠ .reset := by
  unfold defaultTurn
  cases s.phase <;> simp only <;> (try split) <;> simp

/-- Where the schedule holds no reset turn, the coming turn is none. -/
theorem nextTurn_ne_reset {s : State} (h : s.NoReset) : s.nextTurn ≠ .reset := by
  unfold State.nextTurn
  cases ht : s.turns with
  | nil => exact defaultTurn_ne_reset s
  | cons u r =>
    intro hu
    exact h (by rw [ht]; exact List.mem_cons.2 (.inl (by simpa using hu.symm)))

end Sys2Proof.Machine
end

