-- ==== Sys2Proof/Machine/Asm.lean ====
section
/-! DEFINITION. The line format of the spec's programs (30_encoding.md R54), read into the master's operations. Text is a
list of characters. -/

namespace Sys2Proof.Machine

/-- A hexadecimal digit. -/
def hexDigit (c : Char) : Option Nat :=
  if '0' ≤ c ∧ c ≤ '9' then some (c.toNat - 48)
  else if 'a' ≤ c ∧ c ≤ 'f' then some (c.toNat - 87)
  else if 'A' ≤ c ∧ c ≤ 'F' then some (c.toNat - 55)
  else none

/-- Hexadecimal digits, most significant first, after the value `n`. -/
def hexValue (n : Nat) : List Char → Option Nat
  | [] => some n
  | c :: rest => match hexDigit c with
    | some d => hexValue (16 * n + d) rest
    | none => none

/-- A line without its comment and without a quoted `;` mistaken for one. -/
def dropComment : List Char → List Char
  | '\'' :: c :: '\'' :: rest => '\'' :: c :: '\'' :: dropComment rest
  | ';' :: _ => []
  | c :: rest => c :: dropComment rest
  | [] => []

/-- The characters without the spaces around them. -/
def trimSpaces (cs : List Char) : List Char :=
  ((cs.dropWhile (· == ' ')).reverse.dropWhile (· == ' ')).reverse

/-- The names defined so far by `NAME = value`. -/
abbrev AsmNames := List (List Char × Byte)

/-- `byte ::= '0x' hex hex | name | "'" char "'"`; a character stands for its ASCII code, `'\r'` for `0x0d` (R54, G3). -/
def asmByte (names : AsmNames) : List Char → Option Byte
  | ['0', 'x', h, l] => (hexValue 0 [h, l]).map (BitVec.ofNat 8)
  | ['\'', c, '\''] => if c.toNat < 128 then some (BitVec.ofNat 8 c.toNat) else none
  | ['\'', '\\', 'r', '\''] => some 0x0d
  | name => (names.find? (fun n => n.1 == name)).map (·.2)

/-- An address of the master's memory: `0x` and one or more hexadecimal digits (the form R54 leaves to its examples;
log 10). -/
def asmAddr : List Char → Option Nat
  | '0' :: 'x' :: d :: ds => hexValue 0 (d :: ds)
  | _ => none

/-- A mnemonic that stands alone (R54). -/
def asmBare (m : List Char) : Option MasterOp :=
  if m = "CSUM.RESET".toList then some (.present (encode .csumReset))
  else if m = "CSUM.VALUE".toList then some (.present (encode .csumValue))
  else if m = "FC.STATUS".toList then some (.present (encode .fcStatus))
  else none

/-- A mnemonic with its one argument (R54). -/
def asmWith (names : AsmNames) (m arg : List Char) : Option MasterOp :=
  if m = "CSUM.UPDATE".toList then (asmByte names arg).map fun b => .present (encode (.csumUpdate b))
  else if m = "TX.SENDBYTE".toList then (asmByte names arg).map fun b => .present (encode (.txSendByte b))
  else if m = "TX.SENDSTRING".toList then (asmAddr arg).map .sendString
  else if m = "FRAME.CSUM".toList then (asmAddr arg).map .frameCsum
  else if m = "FRAME.SEND".toList then (asmAddr arg).map .frameSend
  else none

/-- What a line says. -/
inductive AsmLine
  /-- blank, or a comment only -/
  | blank
  /-- a command or a pseudo-instruction -/
  | op (o : MasterOp)
  /-- `NAME = value` -/
  | define (name : List Char) (v : Byte)
  /-- not a line of the grammar -/
  | bad
deriving DecidableEq, Repr

/-- One line (R54): `[command] [';' comment]`, or a definition of a name. -/
def asmLine (names : AsmNames) (line : List Char) : AsmLine :=
  let body := trimSpaces (dropComment line)
  let head := body.takeWhile (· != ' ')
  let tail := body.dropWhile (· != ' ')
  match tail with
  | [] => if head = [] then .blank else ((asmBare head).map AsmLine.op).getD .bad
  | ' ' :: '=' :: ' ' :: v => ((asmByte names v).map (AsmLine.define head)).getD .bad
  | _ :: arg => ((asmWith names head arg).map AsmLine.op).getD .bad

/-- A program's lines, in order; none where a line is not of the grammar. -/
def asmProgram (names : AsmNames) : List (List Char) → Option (List MasterOp)
  | [] => some []
  | line :: rest => match asmLine names line with
    | .blank => asmProgram names rest
    | .op o => (asmProgram names rest).map (o :: ·)
    | .define n v => asmProgram ((n, v) :: names) rest
    | .bad => none

end Sys2Proof.Machine
end

