-- ==== Sys2Proof/Tests/Slice0.lean ====
section
/-! SUPPORT. Tests, with the spec's own values as what is expected (95_test_vectors.md, "95" below), and for every
obligation with hypotheses a concrete state and operands that meet them together. -/

namespace Sys2Proof.Tests

open Sys2Proof.Machine

/-! ### A small concrete state -/

/-- The master's memory with frame F2 of 95 2.5 at 0x20, its checksum behind it, and the string "AT\r" at 0x40 (95 2.9). -/
def frameMem : Memory :=
  [(0x20, 0x00), (0x21, 0x09), (0x22, 0x0c), (0x23, 0x80), (0x24, 0x81), (0x25, 0x7f), (0x26, 0x80), (0x27, 0x82)] ++
  [(0x28, 0x83), (0x40, 0x41), (0x41, 0x54), (0x42, 0x0d), (0x43, 0x00)]

/-- Port ready, `ACC = 9c`, far end ready, buffer empty, empty schedule. -/
def bare : State where
  acc := 0x9c
  accWritten := true
  phase := .idle
  pend := 0
  guardCnt := 0
  txEmpty := true
  fcNrdy := false
  fcUnsettled := false
  txWr := false
  txData := 0
  done := false
  rsp := none
  wire := [0x55]
  pastWires := []
  responses := [0x9c]
  program := [.present 0x0100]
  todo := []
  pos := 3
  mem := frameMem
  turns := []
  draws := 0

/-- `bare` with the command word `w` coming next. -/
def withWord (w : Word) : State := { bare with todo := [.present w] }

/-- `bare` with a send of `41` waiting and the schedule `ts`. -/
def waiting (ts : List Turn) : State := { bare with phase := .wait, pend := 0x41, turns := ts }

/-- `bare` in the guard delay after a write of `41`. -/
def guarding : State := { bare with phase := .guard, pend := 0x41, wire := [0x55, 0x41], txEmpty := false }

/-- What `p` sees in the state after a step, none where the step stops. -/
def afterStep {α : Type} (s : State) (p : State → α) : Option α :=
  match step s with
  | .next t => some (p t)
  | .fault _ | .refused _ => none

/-! ### Well-formedness: one ill-formed term for each check of R51, refused -/

theorem test_wf_refuses_zeroField : FormatC.reserved ⟨1, 1, 0⟩ = some .zeroField := by decide
theorem test_wf_refuses_opcode_zero : FormatC.reserved ⟨0, 0, 0⟩ = some .opcode := by decide
theorem test_wf_refuses_opcode_six : FormatC.reserved ⟨0, 6, 0⟩ = some .opcode := by decide
theorem test_wf_refuses_opcode_fifteen : FormatC.reserved ⟨0, 15, 0⟩ = some .opcode := by decide
theorem test_wf_refuses_operand_of_reset : FormatC.reserved ⟨0, 1, 1⟩ = some .operand := by decide
theorem test_wf_refuses_operand_of_value : FormatC.reserved ⟨0, 3, 1⟩ = some .operand := by decide
theorem test_wf_refuses_operand_of_status : FormatC.reserved ⟨0, 5, 0xff⟩ = some .operand := by decide
theorem test_wf_admits_the_commands :
    FormatC.wf ⟨0, 1, 0⟩ ∧ FormatC.wf ⟨0, 2, 0xff⟩ ∧ FormatC.wf ⟨0, 3, 0⟩ ∧ FormatC.wf ⟨0, 4, 0⟩ ∧ FormatC.wf ⟨0, 5, 0⟩ := by
  decide

/-! ### Decoding: one word of each command written out from R47 and R48 as zero, op, imm8; then the table of 95 2.6 -/

theorem test_decode_csumReset : decode 0b0000_0001_00000000 = .ok .csumReset := by rfl
theorem test_decode_csumUpdate : decode 0b0000_0010_10000001 = .ok (.csumUpdate 0x81) := by rfl
theorem test_decode_csumValue : decode 0b0000_0011_00000000 = .ok .csumValue := by rfl
theorem test_decode_txSendByte : decode 0b0000_0100_00001101 = .ok (.txSendByte 0x0d) := by rfl
theorem test_decode_fcStatus : decode 0b0000_0101_00000000 = .ok .fcStatus := by rfl

theorem test_decode_legal_words :
    ([0x0100, 0x0200, 0x02ff, 0x0300, 0x0400, 0x0441, 0x0500] : List Word).map (fun w => (decode w).toOption) =
      [some .csumReset, some (.csumUpdate 0), some (.csumUpdate 0xff), some .csumValue, some (.txSendByte 0),
       some (.txSendByte 0x41), some .fcStatus] := by decide

theorem test_decode_reserved_words :
    ([0x0000, 0x0001, 0x0101, 0x0301, 0x05ff, 0x0600, 0x0f00, 0x1100, 0x8200, 0xffff] : List Word).all
      (fun w => (decode w).toOption.isNone) = true := by decide

theorem test_encode_words :
    ([.csumReset, .csumUpdate 0x09, .csumUpdate 0x83, .csumValue, .txSendByte 0x0d, .txSendByte 0xff, .fcStatus] :
      List Instr).map encode = [0x0100, 0x0209, 0x0283, 0x0300, 0x040d, 0x04ff, 0x0500] := by decide

theorem test_decodeTableWord : decodeTableWord 16 0x0209 = some (.csumUpdate 0x09) ∧ decodeTableWord 16 0x0600 = none := by
  decide

/-! ### The fold table of 95 2.2 -/

/-- Rows 0x to 7x of the table. -/
def foldRowsLow : List Byte :=
  [0x00, 0x5e, 0xbc, 0xe2, 0x61, 0x3f, 0xdd, 0x83, 0xc2, 0x9c, 0x7e, 0x20, 0xa3, 0xfd, 0x1f, 0x41] ++
  [0x9d, 0xc3, 0x21, 0x7f, 0xfc, 0xa2, 0x40, 0x1e, 0x5f, 0x01, 0xe3, 0xbd, 0x3e, 0x60, 0x82, 0xdc] ++
  [0x23, 0x7d, 0x9f, 0xc1, 0x42, 0x1c, 0xfe, 0xa0, 0xe1, 0xbf, 0x5d, 0x03, 0x80, 0xde, 0x3c, 0x62] ++
  [0xbe, 0xe0, 0x02, 0x5c, 0xdf, 0x81, 0x63, 0x3d, 0x7c, 0x22, 0xc0, 0x9e, 0x1d, 0x43, 0xa1, 0xff] ++
  [0x46, 0x18, 0xfa, 0xa4, 0x27, 0x79, 0x9b, 0xc5, 0x84, 0xda, 0x38, 0x66, 0xe5, 0xbb, 0x59, 0x07] ++
  [0xdb, 0x85, 0x67, 0x39, 0xba, 0xe4, 0x06, 0x58, 0x19, 0x47, 0xa5, 0xfb, 0x78, 0x26, 0xc4, 0x9a] ++
  [0x65, 0x3b, 0xd9, 0x87, 0x04, 0x5a, 0xb8, 0xe6, 0xa7, 0xf9, 0x1b, 0x45, 0xc6, 0x98, 0x7a, 0x24] ++
  [0xf8, 0xa6, 0x44, 0x1a, 0x99, 0xc7, 0x25, 0x7b, 0x3a, 0x64, 0x86, 0xd8, 0x5b, 0x05, 0xe7, 0xb9]

/-- Rows 8x to fx of the table. -/
def foldRowsHigh : List Byte :=
  [0x8c, 0xd2, 0x30, 0x6e, 0xed, 0xb3, 0x51, 0x0f, 0x4e, 0x10, 0xf2, 0xac, 0x2f, 0x71, 0x93, 0xcd] ++
  [0x11, 0x4f, 0xad, 0xf3, 0x70, 0x2e, 0xcc, 0x92, 0xd3, 0x8d, 0x6f, 0x31, 0xb2, 0xec, 0x0e, 0x50] ++
  [0xaf, 0xf1, 0x13, 0x4d, 0xce, 0x90, 0x72, 0x2c, 0x6d, 0x33, 0xd1, 0x8f, 0x0c, 0x52, 0xb0, 0xee] ++
  [0x32, 0x6c, 0x8e, 0xd0, 0x53, 0x0d, 0xef, 0xb1, 0xf0, 0xae, 0x4c, 0x12, 0x91, 0xcf, 0x2d, 0x73] ++
  [0xca, 0x94, 0x76, 0x28, 0xab, 0xf5, 0x17, 0x49, 0x08, 0x56, 0xb4, 0xea, 0x69, 0x37, 0xd5, 0x8b] ++
  [0x57, 0x09, 0xeb, 0xb5, 0x36, 0x68, 0x8a, 0xd4, 0x95, 0xcb, 0x29, 0x77, 0xf4, 0xaa, 0x48, 0x16] ++
  [0xe9, 0xb7, 0x55, 0x0b, 0x88, 0xd6, 0x34, 0x6a, 0x2b, 0x75, 0x97, 0xc9, 0x4a, 0x14, 0xf6, 0xa8] ++
  [0x74, 0x2a, 0xc8, 0x96, 0x15, 0x4b, 0xa9, 0xf7, 0xb6, 0xe8, 0x0a, 0x54, 0xd7, 0x89, 0x6b, 0x35]

theorem test_fold_table_low : (List.range 128).map (fun n => fold (BitVec.ofNat 8 n)) = foldRowsLow := by decide +kernel
theorem test_fold_table_high :
    (List.range 128).map (fun n => fold (BitVec.ofNat 8 (n + 128))) = foldRowsHigh := by decide +kernel

/-- 95 2.5: the accumulator after each byte of frame F4; P1's last line. -/
theorem test_trace_F4 : ([0x12, 0x34, 0x56, 0x00, 0x40, 0x80, 0xc0, 0xff] : List Byte).scanl updated 0 =
    [0x00, 0x21, 0xa2, 0x15, 0xa2, 0x55, 0x68, 0x6d, 0xad] := by decide

/-! ### The commands, one step each -/

/-- 95 2.3: `ACC = 9c`, CSUM.RESET. -/
theorem test_csumReset_step : afterStep (withWord 0x0100) (fun t => (t.acc, t.rsp, t.done)) = some (0x00, none, true) := by
  decide
/-- 95 2.3: the third byte of frame F2. -/
theorem test_csumUpdate_step : afterStep (withWord 0x020c) (fun t => (t.acc, t.rsp)) = some (0x11, some 0x11) := by decide
/-- 95 2.3: CSUM.VALUE answers and leaves the accumulator. -/
theorem test_csumValue_step : afterStep (withWord 0x0300) (fun t => (t.acc, t.rsp)) = some (0x9c, some 0x9c) := by decide
/-- 95 S1, M: accept, WAIT, `pend = 41`. -/
theorem test_txSendByte_accept :
    afterStep (withWord 0x0441) (fun t => (t.phase, t.pend, t.done, t.wire)) = some (.wait, 0x41, false, [0x55]) := by decide
/-- 95 S1, B: write, GUARD. -/
theorem test_txSendByte_write :
    afterStep (waiting [.block []]) (fun t => (t.phase, t.wire, t.txEmpty, t.txWr, t.txData)) =
      some (.guard, [0x55, 0x41], false, true, 0x41) := by decide
/-- 95 2.7, last row. -/
theorem test_fcStatus_step :
    afterStep { withWord 0x0500 with fcNrdy := true } (fun t => (t.rsp, t.done)) = some (some 0x03, true) := by decide
/-- 95 2.7, first row: buffer full, far end ready. -/
theorem test_fcStatus_full : afterStep { withWord 0x0500 with txEmpty := false } (fun t => t.rsp) = some (some 0x00) := by
  decide
/-- 95 S8: not ready in GUARD changes nothing; the command is done. -/
theorem test_guard_done :
    afterStep { guarding with fcNrdy := true } (fun t => (t.phase, t.done, t.rsp, t.wire)) =
      some (.idle, true, none, [0x55, 0x41]) := by decide
/-- 95 S2, E: with the buffer full the default schedule drains the UART (R97). -/
theorem test_wait_drains : afterStep { waiting [] with txEmpty := false } (fun t => (t.phase, t.txEmpty)) = some (.wait, true) := by
  decide
/-- 95 S6: reset in WAIT: IDLE, `acc = none`, the byte is never written. -/
theorem test_reset_in_wait :
    afterStep (waiting [.reset]) (fun t => (t.phase, t.accWritten, t.wire, t.pastWires, t.done)) =
      some (.idle, false, [], [[0x55]], false) := by decide
/-- R87, row GUARD: the far end raises the level within a step that takes no sample (GUARD): the next sample is the level (R87). -/
theorem test_move_in_guard_is_forgotten :
    afterStep { guarding with turns := [.block [true]] } (fun t => (t.phase, t.fcNrdy, t.sampleFc)) =
      some (.idle, true, true) := by decide
/-- R87: a whole pulse within a step in IDLE. -/
theorem test_pulse_in_idle_is_forgotten :
    afterStep { bare with turns := [.block [true, false]] } (fun t => (t.fcNrdy, t.fcUnsettled, t.sampleFc)) =
      some (false, false, false) := by decide
/-- 95 2.6: a reserved word has no next state. -/
theorem test_reserved_refused : afterStep (withWord 0x0600) (fun t => t.acc) = none := by decide
/-- 95 2.8, end: in WAIT a CSUM.VALUE that is presented is not accepted. -/
theorem test_busy_holds_the_master :
    afterStep { waiting [.master []] with todo := [.present 0x0300] } (fun t => (t.todo, t.phase, t.done)) =
      some ([.present 0x0300], .wait, false) := by decide

/-! ### The master's side -/

/-- 95 2.9: the empty string reaches the block with nothing. -/
theorem test_sendString_empty : afterStep { bare with todo := [.sendString 0x43] } (fun t => (t.todo, t.phase, t.wire)) =
    some ([], .idle, [0x55]) := by decide
/-- P1, line 11. -/
theorem test_storeRsp : afterStep { bare with todo := [.storeRsp 0x28] } (fun t => t.mem.read 0x28) = some (some 0x9c) := by
  decide
/-- R102: FRAME.CSUM is one reset, eight updates, one value and one store. -/
theorem test_frameCsum_expansion : (frameCsumOps 0x20).length = 11 ∧ (frameCsumOps 0x20)[8]? = some (.updateFrom 0x27) ∧
    (frameCsumOps 0x20)[10]? = some (.storeRsp 0x28) := by decide
/-- R104, R106: the re-arm stands before the ninth send. -/
theorem test_frameSend_expansion : (frameSendOps 0x20).length = 10 ∧ (frameSendOps 0x20)[8]? = some .rearm ∧
    (frameSendOps 0x20)[9]? = some (.sendFrom 0x28) := by decide
/-- R105: nine carriage returns come first. -/
theorem test_report_begins : (reportOps 0x40 0x20).take 9 = List.replicate 9 (.present 0x040d) := by decide
/-- R31: 16-bit uptime 0x1234, high byte first. -/
theorem test_uptime_bytes : (uptimeHi 0x1234, uptimeLo 0x1234) = (0x12, 0x34) := by decide

/-! ### The line format (R54), on P4's lines and R54's own forms -/

theorem test_asm_lines :
    asmProgram [] ["CSUM.RESET".toList, "CSUM.UPDATE 0x41 ; 'A'".toList, "FC.STATUS".toList, "".toList,
      "TX.SENDBYTE 'A'".toList, "CSUM.VALUE".toList] =
    some [.present 0x0100, .present 0x0241, .present 0x0500, .present 0x0441, .present 0x0300] := by decide

theorem test_asm_pseudo :
    asmProgram [] ["CR = 0x0d".toList, "TX.SENDBYTE CR".toList, "TX.SENDBYTE '\\r'".toList, "TX.SENDSTRING 0x40".toList,
      "FRAME.CSUM 0x20".toList, "FRAME.SEND 0x20".toList] =
    some [.present 0x040d, .present 0x040d, .sendString 0x40, .frameCsum 0x20, .frameSend 0x20] := by decide

theorem test_asm_refuses : asmProgram [] ["CSUM.UPDATE".toList] = none ∧ asmProgram [] ["NOP".toList] = none := by decide

/-- The inverse of `fold`, from the arguments R67 lists. -/
def unfold8 (r : Byte) : Byte :=
  ([0x19, 0x32, 0x64, 0xc8, 0x89, 0x0b, 0x16, 0x2c] : List Byte).zipIdx.foldl
    (fun acc p => if r.getLsbD p.2 then acc ^^^ p.1 else acc) 0

/-! ### Witnesses: states and operands that meet the hypotheses of the obligations, together -/

theorem witness_DecodeEncodeRoundTrip : decode 0x0209 = .ok (.csumUpdate 0x09) := by rfl

theorem witness_OpcodeMapDecodesByMaskAndMatch :
    (decode 0x0209 = .ok (.csumUpdate 0x09) ∧ (⟨"CSUM.UPDATE", 0x0200, 0xff00⟩ : OpcodeRow) ∈ opcodeTable) ∧
    decode 0x0600 = .error .opcode := ⟨⟨rfl, by decide⟩, rfl⟩

theorem witness_ReservedWordsAreRefused :
    ((withWord 0x1100).presented = some 0x1100 ∧ decode 0x1100 = .error .zeroField) ∧
    ((withWord 0x0600).presented = some 0x0600 ∧ decode 0x0600 = .error .opcode) ∧
    ((withWord 0x0101).presented = some 0x0101 ∧ decode 0x0101 = .error .operand) :=
  ⟨⟨by decide, rfl⟩, ⟨by decide, rfl⟩, by decide, rfl⟩

/-- With the level still; with the level moving inside the step. -/
theorem witness_StepRunsPresentedCommand :
    (withWord 0x0209).nextTurn = .master [] ∧ (withWord 0x0209).phase = .idle ∧
    (withWord 0x0209).masterAct = .present 0x0209 [] ∧ decode 0x0209 = .ok (.csumUpdate 0x09) :=
  ⟨by decide, rfl, by decide, rfl⟩

theorem witness_StepRunsPresentedCommand_moving :
    let s := { withWord 0x0500 with turns := [.master [true]] }
    s.nextTurn = .master [true] ∧ s.phase = .idle ∧ s.masterAct = .present 0x0500 [] ∧ decode 0x0500 = .ok .fcStatus :=
  ⟨by decide, rfl, by decide, rfl⟩

theorem witness_BusyPortTakesNoCommand :
    ((waiting [.master []]).phase ≠ .idle ∧ (waiting [.master []]).nextTurn = .master []) ∧
    ({ guarding with turns := [.master []] }.phase ≠ .idle ∧ State.nextTurn { guarding with turns := [.master []] } = .master []) := by
  decide

theorem witness_BlockRaisesNoException :
    step (withWord 0x0600) = .refused (.reservedWord 0x0600 .opcode) ∧
    step { bare with todo := [.sendFrom 0x99] } = .fault (.unwrittenByte 0x99) := ⟨rfl, rfl⟩

theorem witness_FoldIsLinearOverXor : ([0x01, 0x02] : List Byte).length = ([0x80, 0xff] : List Byte).length := rfl

/-- The inverse `g` of the third clause is the bit table of R67's eight arguments; the fifth clause needs two bytes. -/
theorem witness_FoldIsABijection : (∃ g : Byte → Byte, ∀ v, g (fold v) = v) ∧ (0x01 : Byte) ≠ 0x02 :=
  ⟨⟨unfold8, by decide +kernel⟩, by decide⟩

theorem witness_CsumResetZeroesAcc :
    bare.phase = .idle ∧ ∃ t u, exec .csumReset bare = .next t ∧ exec .csumReset t = .next u := ⟨rfl, _, _, rfl, rfl⟩

/-- Also with the accumulator unwritten since reset. -/
theorem witness_CsumUpdateFoldsByte_and_CsumValueReadsAcc :
    bare.phase = .idle ∧ { bare with accWritten := false }.phase = .idle := ⟨rfl, rfl⟩

theorem witness_StreamThroughEngineGivesChecksum :
    let s := { bare with todo := [.present 0x0100, .present 0x0231, .present 0x0232, .present 0x0300, .rearm] }
    s.phase = .idle ∧ s.turns = [] ∧
    s.todo = .present (encode .csumReset) :: [0x31, 0x32].map (fun b => .present (encode (.csumUpdate b))) ++
      .present (encode .csumValue) :: [.rearm] := by decide

theorem witness_AccWrittenOnlyByItsCommands :
    (∃ t, step (withWord 0x020c) = .next t ∧ t.acc ≠ (withWord 0x020c).acc) ∧
    (∃ t, step { withWord 0x0100 with accWritten := false } = .next t ∧ t.accWritten = true) ∧
    (∃ t, step (waiting [.reset]) = .next t ∧ (waiting [.reset]).accWritten = true ∧ t.accWritten = false) :=
  ⟨⟨_, rfl, by decide⟩, ⟨_, rfl, rfl⟩, _, rfl, rfl, rfl⟩

theorem witness_ChecksumCommandsFrame :
    (∃ t, exec .csumReset bare = .next t) ∧ (∃ t, exec (.csumUpdate 0x0c) bare = .next t) ∧
    (∃ t, exec .csumValue bare = .next t) := ⟨⟨_, rfl⟩, ⟨_, rfl⟩, _, rfl⟩

/-- The two states differ in the gate, the levels, the wire and the memory. -/
theorem witness_ChecksumIgnoresTheGate :
    let s := { bare with txEmpty := false, fcNrdy := true, wire := [], mem := [], pos := 0 }
    bare.phase = .idle ∧ s.phase = .idle ∧ bare.acc = s.acc ∧ bare.accWritten = s.accWritten ∧
    ∃ t₁ t₂, exec (.csumUpdate 0x0c) bare = .next t₁ ∧ exec (.csumUpdate 0x0c) s = .next t₂ :=
  ⟨rfl, rfl, rfl, rfl, _, _, rfl, rfl⟩

theorem witness_SendByteIsAccepted : bare.phase = .idle := rfl

theorem witness_SendByteRunsToDone :
    let s := { withWord 0x0441 with turns := [.master [], .block [], .block [], .uartDrain] }
    s.phase = .idle ∧ s.turns = .master [] :: .block [] :: .block [] :: [.uartDrain] ∧ s.masterAct = .present 0x0441 [] ∧
    decode 0x0441 = .ok (.txSendByte 0x41) ∧ s.fcUnsettled = false ∧ s.fcNrdy = false ∧ s.txEmpty = true :=
  ⟨rfl, rfl, rfl, rfl, rfl, rfl, rfl⟩

/-- The gate open; shut by the far end; shut by the buffer; and a level that moves within the step, with the buffer full. -/
theorem witness_WaitStepWritesExactlyWhenOpen :
    (let s := waiting [.block []]; s.nextTurn = .block [] ∧ s.phase = .wait ∧ s.seenFc = false ∧ s.txEmpty = true) ∧
    (let s := { waiting [.block []] with fcNrdy := true }; s.nextTurn = .block [] ∧ s.phase = .wait ∧ s.seenFc = true) ∧
    (let s := { waiting [.block [true, false]] with txEmpty := false }
     s.nextTurn = .block [true, false] ∧ s.phase = .wait ∧ s.txEmpty = false) := by
  decide

theorem witness_GuardStepCompletesTheSend : guarding.nextTurn = .block [] ∧ guarding.phase = .guard := by decide

theorem witness_GateFrame :
    (∃ t, exec (.txSendByte 0x41) bare = .next t) ∧ (∃ t, exec .fcStatus bare = .next t) ∧
    (∃ t, (waiting [.block []]).nextTurn = .block [] ∧ step (waiting [.block []]) = .next t) ∧
    (∃ t, guarding.nextTurn = .block [] ∧ step guarding = .next t) :=
  ⟨⟨_, rfl⟩, ⟨_, rfl⟩, ⟨_, rfl, rfl⟩, _, rfl, rfl⟩

theorem witness_SendByteHasNoTimeout :
    (let s := { waiting [.block []] with txEmpty := false }
     s.phase = .wait ∧ s.nextTurn.isBlock = true ∧ s.txEmpty = false ∧ ∃ t, step s = .next t) ∧
    (let s := waiting [.block []]
     s.phase = .wait ∧ ∃ t, step s = .next t ∧ t.phase ≠ .wait) ∧
    (let s := { waiting [.block [true], .fcDrive true, .uartDrain, .master [], .guardTick] with fcNrdy := true }
     s.phase = .wait ∧ s.fcNrdy = true ∧ s.fcUnsettled = false ∧
     ∀ u ∈ s.turns, u ≠ .reset ∧ false ∉ u.drives) :=
  ⟨⟨rfl, rfl, rfl, _, rfl⟩, ⟨rfl, _, rfl, by decide⟩, by decide⟩

theorem witness_WaitEndsExactlyAtAReadySample :
    (let s := waiting [.block []]
     s.phase = .wait ∧ s.nextTurn ≠ .reset ∧ ∃ t, step s = .next t ∧ t.phase ≠ .wait) ∧
    (let s := waiting [.fcDrive true]
     s.phase = .wait ∧ s.nextTurn ≠ .reset ∧ ∃ t, step s = .next t ∧ t.phase = .wait ∧ s.txEmpty = true) :=
  ⟨⟨rfl, by decide, _, rfl, by decide⟩, rfl, by decide, _, rfl, rfl, rfl⟩

theorem witness_ReadyFarEndLetsTheSendComplete :
    let s := { waiting [.block [false], .uartDrain, .master [], .fcDrive false] with txEmpty := false }
    s.phase = .wait ∧ s.fcNrdy = false ∧ s.fcUnsettled = false ∧
    ∀ u ∈ s.turns, u ≠ .reset ∧ true ∉ u.drives := by decide

theorem witness_FcStatusReadsTheTwoLevels : bare.phase = .idle ∧ (waiting []).phase ≠ .idle := by decide

theorem witness_SampleIsTheLevelUnlessItChanges :
    (waiting [.block [true, false]]).fcUnsettled = false ∧
    (let s := waiting [.block [false]]; s.fcUnsettled = false ∧ ∀ v ∈ s.nextTurn.drives, v = s.fcNrdy) ∧
    (∃ t, step (waiting [.reset]) = .next t ∧ (waiting [.reset]).fcUnsettled = false ∧ t.fcUnsettled = true) :=
  ⟨rfl, by decide, _, rfl, rfl, rfl⟩

theorem witness_PulseBetweenSamplesLeavesNoTrace :
    (let s := waiting [.fcDrive true, .fcDrive false, .block []]
     s.turns = .fcDrive true :: .fcDrive s.fcNrdy :: [.block []]) ∧
    (let s := { guarding with turns := [.block [true, false]] }
     s.turns = [.block [true, false]] ∧ s.phase ≠ .wait ∧ [true, false].getLastD s.fcNrdy = s.fcNrdy) ∧
    (let s := { withWord 0x0441 with turns := [.master [true, false]] }
     s.turns = [.master [true, false]] ∧ State.executes s ≠ some .fcStatus ∧ [true, false].getLastD s.fcNrdy = s.fcNrdy) := by
  decide

/-- A step that writes; a step that does not. -/
theorem witness_WireGrowsOnlyThroughTheGate :
    (∃ t, step (waiting [.block []]) = .next t ∧ (waiting [.block []]).nextTurn ≠ .reset ∧ t.txWr = true) ∧
    (∃ t, step (withWord 0x0441) = .next t ∧ (withWord 0x0441).nextTurn ≠ .reset ∧ t.txWr = false) :=
  ⟨⟨_, rfl, by decide, rfl⟩, _, rfl, by decide, rfl⟩

theorem witness_EachAcceptedByteIsWrittenOnceInOrder :
    (withWord 0x0441).NoReset ∧ acceptedIn 3 (withWord 0x0441) = [0x41] ∧ ∃ t, Reaches 3 (withWord 0x0441) t :=
  ⟨by decide, rfl, _, rfl⟩

theorem witness_LevelsChangeOnlyByTheirOwners :
    (∃ t, step (waiting [.fcDrive true]) = .next t ∧ t.fcNrdy ≠ (waiting [.fcDrive true]).fcNrdy) ∧
    (∃ t, step (waiting [.block []]) = .next t ∧ (waiting [.block []]).txEmpty = true ∧ t.txEmpty = false) ∧
    (∃ t, step { waiting [.uartDrain] with txEmpty := false } = .next t ∧ t.txEmpty = true) :=
  ⟨⟨_, rfl, by decide⟩, ⟨_, rfl, rfl, rfl⟩, _, rfl, rfl⟩

/-- Reset in IDLE, in WAIT and in GUARD: for RestartAbandonsTheCommand and RestartPutsTheBlockInItsResetState. -/
theorem witness_Restart :
    State.nextTurn { bare with turns := [.reset] } = .reset ∧ (waiting [.reset]).nextTurn = .reset ∧
    State.nextTurn { guarding with turns := [.reset] } = .reset := by decide

theorem witness_MasterStoresTheResponse :
    let s := { bare with todo := [.storeRsp 0x28, .rearm] }
    s.phase = .idle ∧ s.nextTurn = .master [] ∧ s.todo = .storeRsp 0x28 :: [.rearm] ∧ s.mem.wf = true := by decide

/-- `bare` with P1 to run. -/
def p1 : State := { bare with todo := [.frameCsum 0x20] }

theorem witness_FrameCsumStoresTheChecksum :
    let bs : List Byte := [0x00, 0x09, 0x0c, 0x80, 0x81, 0x7f, 0x80, 0x82]
    p1.phase = .idle ∧ p1.todo = [.frameCsum 0x20] ∧ bs.length = 8 ∧ (∀ k, k < 8 → p1.mem.read (0x20 + k) = bs[k]?) ∧
    p1.turns = [] ∧ p1.NoReset ∧ ∃ t, Reaches 12 p1 t ∧ t.AtEnd :=
  ⟨rfl, rfl, rfl, by decide, rfl, by decide, _, rfl, by decide⟩

/-- `bare` with P2 to run. -/
def p2 : State := { bare with todo := [.frameSend 0x20] }

theorem witness_FrameSendPutsNineBytesOnTheWire :
    let bs : List Byte := [0x00, 0x09, 0x0c, 0x80, 0x81, 0x7f, 0x80, 0x82, 0x83]
    p2.phase = .idle ∧ p2.todo = [.frameSend 0x20] ∧ bs.length = 9 ∧ (∀ k, k < 9 → p2.mem.read (0x20 + k) = bs[k]?) ∧
    p2.NoReset ∧ ∃ t, Reaches 37 p2 t ∧ t.AtEnd :=
  ⟨rfl, rfl, rfl, by decide, by decide, _, rfl, by decide⟩

/-- `bare` with P3 to run. -/
def p3 : State := { bare with todo := [.sendString 0x40] }

theorem witness_SendStringStopsAtTheNull :
    let bs : List Byte := [0x41, 0x54, 0x0d]
    p3.phase = .idle ∧ p3.todo = [.sendString 0x40] ∧ (∀ b ∈ bs, b ≠ 0) ∧
    (∀ k, k < bs.length → p3.mem.read (0x40 + k) = bs[k]?) ∧ p3.mem.read (0x40 + bs.length) = some 0 ∧
    p3.NoReset ∧ ∃ t, Reaches 12 p3 t ∧ t.AtEnd :=
  ⟨rfl, rfl, by decide, by decide, rfl, by decide, _, rfl, by decide⟩

/-- `bare` with P1 and then P2 to run. -/
def p12 : State := { bare with todo := [.frameCsum 0x20, .frameSend 0x20] }

/-- After P1: the engine's nine responses, the checksum stored where it already stood (95 P1). -/
def p12mid : State :=
  { p12 with todo := [.frameSend 0x20], acc := 0x83, pos := 13,
             responses := [0x9c] ++ [0x00, 0x9c, 0x11, 0x4f, 0xd5, 0xd1, 0x85, 0x83] ++ [0x83] }

theorem p12_csum : ∃ t, Reaches 12 p12 t ∧ t = p12mid := ⟨_, rfl, by decide +kernel⟩

theorem p12_send : ∃ t, Reaches 37 p12mid t ∧ t.AtEnd := ⟨_, rfl, by decide⟩

theorem witness_ReportedFrameCarriesItsChecksum :
    let bs : List Byte := [0x00, 0x09, 0x0c, 0x80, 0x81, 0x7f, 0x80, 0x82]
    p12.phase = .idle ∧ p12.todo = [.frameCsum 0x20, .frameSend 0x20] ∧ bs.length = 8 ∧
    (∀ k, k < 8 → p12.mem.read (0x20 + k) = bs[k]?) ∧ p12.NoReset ∧ ∃ t, Reaches (12 + 37) p12 t ∧ t.AtEnd :=
  ⟨rfl, rfl, rfl, by decide, by decide, p12_csum.elim fun _ c => p12_send.imp fun _ h =>
    ⟨reaches_add (c.2 ▸ c.1) h.1, h.2⟩⟩

theorem witness_InterleavingChangesNoResult :
    bare.phase = .idle ∧ bare.turns = [] ∧ bare.fcUnsettled = false ∧ bare.fcNrdy = false ∧ bare.txEmpty = true := by decide

theorem witness_EveryStepIsARowOfTheTransitionTable : ∃ t, step (waiting [.block []]) = .next t := ⟨_, rfl⟩

/-- R8: P1 ends, with P1's responses and checksum; a program that begins with a read of the accumulator is faulted; one
that reaches a reserved word is refused; a hung send goes on. -/
theorem test_judge_ended :
    judge 12 p1 = .ended ⟨[0x9c] ++ [0x00, 0x9c, 0x11, 0x4f, 0xd5, 0xd1, 0x85, 0x83] ++ [0x83], [0x55], some 0x83, frameMem⟩ := by
  decide +kernel
theorem test_judge_faulted : judge 1 (State.start [.present 0x0300] [] []) = .faulted := by rfl
theorem test_judge_refused : judge 2 { bare with todo := [.present 0x0100, .present 0x0600] } = .refused := by rfl
theorem test_judge_hang : judge 3 { waiting [.block [], .block [], .block []] with fcNrdy := true } = .going := by rfl

/-- One clause each: an ended run; a read of the unwritten accumulator as the second command; a reserved word as the second;
a read as the first command of a program. -/
theorem witness_EndedRunIsNeitherFaultedNorRefused :
    (∃ k s o, judge k s = .ended o) ∧
    (let s := { bare with accWritten := false, todo := [.present 0x0500, .present 0x0300] }
     ∃ u, SafeRun 1 s ∧ Reaches 1 s u ∧ u.readsUnwrittenAcc = true) ∧
    (let s := { bare with todo := [.present 0x0100, .present 0x0600] }
     ∃ u, SafeRun 1 s ∧ Reaches 1 s u ∧ u.presented = some 0x0600 ∧ decode 0x0600 = .error .opcode) ∧
    decode 0x0300 = .ok .csumValue ∧ decode 0x0209 = .ok (.csumUpdate 0x09) :=
  ⟨⟨12, p1, _, test_judge_ended⟩, ⟨_, ⟨rfl, _, rfl, trivial⟩, rfl, rfl⟩, ⟨_, ⟨rfl, _, rfl, trivial⟩, rfl, rfl, rfl⟩, rfl, rfl⟩

theorem bare_inv : bare.Inv where
  memCanonical := by decide
  guardCntOff _ := rfl
  guardCntLe := Nat.zero_le _
  writeStrobe h := by cases h
  doneIdle h := by cases h
  rspWithDone _ h := by cases h
  responsesLePos := by decide
  guardWrote h := by cases h

theorem witness_StepKeepsInvariant : bare.Inv ∧ ∃ t, step bare = .next t := ⟨bare_inv, _, rfl⟩

end Sys2Proof.Tests
end

/-! PROOFS, 00_scope.md: the guard delay in whole cycles (R5, R84), and the verdict on a run (R8). -/

namespace Sys2Proof.Config

/-! ### Rounding up -/

theorem le_ceilDiv_mul (n : Nat) {d : Nat} (hd : 0 < d) : n ≤ ceilDiv n d * d := by
  have hdiv := Nat.div_add_mod' n d
  have hmod := Nat.mod_lt n hd
  rw [ceilDiv, Nat.add_mul]
  split <;> omega

theorem ceilDiv_mul_lt (n : Nat) {d : Nat} (hd : 0 < d) : ceilDiv n d * d < n + d := by
  have hdiv := Nat.div_add_mod' n d
  rw [ceilDiv, Nat.add_mul]
  split <;> omega

/-- Settles O37: the bounds of rounding up hold of every product of delay and clock. -/
theorem guardCyclesAreRoundedUp : Obligations.GuardCyclesAreRoundedUp :=
  ⟨Nat.le_add_right 50 guardMarginUs, le_ceilDiv_mul _ (by decide : 0 < usPerSecond),
    ceilDiv_mul_lt _ (by decide : 0 < usPerSecond)⟩

end Sys2Proof.Config

namespace Sys2Proof.Machine

/-! ### The word presented and the command executed in a step -/

theorem presented_eq_some {s : State} {w : Word} : s.presented = some w ↔
    (∃ vs, s.nextTurn = .master vs) ∧ s.phase = .idle ∧ ∃ todo, s.masterAct = .present w todo := by
  have hm : s.nextTurn.isMaster = true ↔ ∃ vs, s.nextTurn = .master vs := by
    cases s.nextTurn <;> simp [Turn.isMaster]
  unfold State.presented
  rw [← hm, ← and_assoc]
  split
  next h => cases s.masterAct <;> simp [h]
  next h => simp [h]

theorem executes_of_decode_ok {s : State} {w : Word} {i : Instr} (hp : s.presented = some w) (hd : decode w = .ok i) :
    s.executes = some i := by
  simp [State.executes, hp, hd, Except.toOption]

theorem executes_of_reserved {s : State} {w : Word} {why : Reserved} (hp : s.presented = some w)
    (hd : decode w = .error why) : s.executes = none := by
  simp [State.executes, hp, hd, Except.toOption]

/-- A step that presents a reserved word is refused (R51). -/
theorem step_of_reserved {s : State} {w : Word} {why : Reserved} (hp : s.presented = some w)
    (hd : decode w = .error why) : step s = .refused (.reservedWord w why) := by
  obtain ⟨⟨vs, hn⟩, hi, todo, ha⟩ := presented_eq_some.1 hp
  have hr : (levelsMove vs (strobesLow s.dropTurn)).cmdReady = true := (cmdReady_iff _).2 hi
  simp [step, hn, takeTurn, masterTurn, hr, ha, presentWord, hd, onNext]

theorem readsUnwrittenAcc_iff {s : State} : s.readsUnwrittenAcc = true ↔
    s.accWritten = false ∧ (s.executes = some .csumValue ∨ ∃ b, s.executes = some (.csumUpdate b)) := by
  unfold State.readsUnwrittenAcc
  cases s.executes with
  | none => simp
  | some i => cases i <;> simp

theorem readsUnwrittenAcc_of_reserved {s : State} {w : Word} {why : Reserved} (hp : s.presented = some w)
    (hd : decode w = .error why) : s.readsUnwrittenAcc = false := by
  simp [State.readsUnwrittenAcc, executes_of_reserved hp hd]

/-! ### The verdict, one equation per way a step can go -/

theorem judge_zero (s : State) : judge 0 s = if s.AtEnd then .ended s.observed else .going := rfl

theorem judge_of_unwritten (k : Nat) {s : State} (h : s.readsUnwrittenAcc = true) : judge (k + 1) s = .faulted := by
  simp [judge, h]

theorem judge_of_next (k : Nat) {s t : State} (h : s.readsUnwrittenAcc = false) (ht : step s = .next t) :
    judge (k + 1) s = judge k t := by
  simp [judge, h, ht]

theorem judge_of_fault (k : Nat) {s : State} {r : Fault} (h : s.readsUnwrittenAcc = false) (hr : step s = .fault r) :
    judge (k + 1) s = .faulted := by
  simp [judge, h, hr]

theorem judge_of_refused (k : Nat) {s : State} {r : Refusal} (h : s.readsUnwrittenAcc = false)
    (hr : step s = .refused r) : judge (k + 1) s = .refused := by
  simp [judge, h, hr]

/-- A safe run is judged as what comes after it. -/
theorem judge_of_safeRun {j : Nat} (k : Nat) {s u : State} (hs : SafeRun j s) (hr : Reaches j s u) :
    judge (k + j) s = judge k u := by
  induction j generalizing s with
  | zero => rw [reaches_zero.1 hr]; rfl
  | succ j ih =>
    obtain ⟨hacc, t, ht, hsafe⟩ := safeRun_succ.1 hs
    obtain ⟨t', ht', hreach⟩ := reaches_succ.1 hr
    obtain rfl : t = t' := by simpa [ht] using ht'
    exact (judge_of_next _ hacc ht).trans (ih hsafe hreach)

/-- The verdict "ended" is given to ended runs only, with what is observed at their end. -/
theorem judge_eq_ended {k : Nat} {s : State} {o : Observation} :
    judge k s = .ended o ↔ ∃ t, EndedRun k s t ∧ t.observed = o := by
  induction k generalizing s with
  | zero =>
    rw [judge_zero]
    by_cases h : s.AtEnd
    · simpa [if_pos h, endedRun_zero] using fun _ => h
    · simp [endedRun_zero, h]
  | succ k ih =>
    cases hacc : s.readsUnwrittenAcc with
    | true => simp [judge_of_unwritten k hacc, endedRun_succ, hacc]
    | false =>
      cases hs : step s with
      | next u => simp [judge_of_next k hacc hs, ih, endedRun_succ, hacc, hs]
      | fault r => simp [judge_of_fault k hacc hs, endedRun_succ, hs]
      | refused r => simp [judge_of_refused k hacc hs, endedRun_succ, hs]

theorem not_endedRun_of_judge {k : Nat} {s : State} (h : ∀ o, judge k s ≠ .ended o) (t : State) : ¬ EndedRun k s t :=
  fun ht => h t.observed (judge_eq_ended.2 ⟨t, ht, rfl⟩)

/-- What ends the verdict one step after a safe run of `j` steps ends it for every longer run. -/
theorem judge_of_lt {j k : Nat} {s u : State} {v : Verdict} (hjk : j < k) (hs : SafeRun j s) (hr : Reaches j s u)
    (hv : ∀ n, judge (n + 1) u = v) : judge k s = v := by
  obtain ⟨n, rfl⟩ : ∃ n, k = n + 1 + j := ⟨k - j - 1, by omega⟩
  rw [judge_of_safeRun _ hs hr, hv]

/-- Just after a reset the accumulator is unwritten, so a program's first command must not read it (U2). -/
theorem start_readsUnwrittenAcc {w : Word} {i : Instr} (p : List MasterOp) (m : Memory) (vs : List Bool)
    (ts : List Turn) (hd : decode w = .ok i) (hi : i = .csumValue ∨ ∃ b, i = .csumUpdate b) :
    (State.start (.present w :: p) m (.master vs :: ts)).readsUnwrittenAcc = true := by
  have hx : (State.start (.present w :: p) m (.master vs :: ts)).executes = some i := executes_of_decode_ok rfl hd
  refine readsUnwrittenAcc_iff.2 ⟨rfl, ?_⟩
  simpa [hx] using hi

/-- Settles O51: a safe run is judged as its remainder, and the verdict there excludes an ended run. -/
theorem endedRunIsNeitherFaultedNorRefused : Obligations.EndedRunIsNeitherFaultedNorRefused := by
  refine ⟨fun k s o => judge_eq_ended, ?_, ?_, ?_⟩
  · intro j k s u hjk hs hr hu
    have hj : judge k s = .faulted := judge_of_lt hjk hs hr fun n => judge_of_unwritten n hu
    exact ⟨hj, not_endedRun_of_judge (by simp [hj])⟩
  · intro j k s u w why hjk hs hr hp hd
    have hj : judge k s = .refused := judge_of_lt hjk hs hr fun n =>
      judge_of_refused n (readsUnwrittenAcc_of_reserved hp hd) (step_of_reserved hp hd)
    exact ⟨hj, not_endedRun_of_judge (by simp [hj])⟩
  · intro p m vs ts w i k hd hi
    exact judge_of_unwritten k (start_readsUnwrittenAcc p m vs ts hd hi)

end Sys2Proof.Machine

/-! PROOFS, 10_state.md: what a command, a block step and a step can do, said once; the owners of each piece of state (R11,
R18, R20, R22, R28); the frames of the commands (R26); and the invariant of the machine. -/

namespace Sys2Proof.Machine

/-! ### A command as what it does to the state where the port is ready -/

/-- The state that a command leaves where the port is ready (R62, R63, R64, R81 step 1, R90). -/
def effect : Instr → State → State
  | .csumReset, s => complete none (zeroAcc s)
  | .csumUpdate b, s => complete (some (updated s.acc b)) (setAcc (updated s.acc b) s)
  | .csumValue, s => complete (some s.acc) s
  | .txSendByte b, s => acceptSend b s
  | .fcStatus, s => complete (some (statusByte s.txEmpty s.sampleFc)) (afterSample s)

theorem exec_eq_whenReady (i : Instr) (s : State) : exec i s = whenReady s (effect i) := by cases i <;> rfl

theorem exec_idle {s : State} (h : s.phase = .idle) (i : Instr) : exec i s = .next (effect i s) := by
  rw [exec_eq_whenReady, whenReady_idle h]

theorem exec_busy {s : State} (h : s.phase ≠ .idle) (i : Instr) : exec i s = .next s := by
  rw [exec_eq_whenReady, whenReady_busy h]

/-- A command, inverted: the port is ready and it takes effect, or the port is busy and nothing changes. -/
theorem exec_next {i : Instr} {s t : State} (h : exec i s = .next t) :
    (s.phase = .idle ∧ t = effect i s) ∨ (s.phase ≠ .idle ∧ t = s) := by
  by_cases hp : s.phase = .idle
  · rw [exec_idle hp] at h
    injection h with h
    exact .inl ⟨hp, h.symm⟩
  · rw [exec_busy hp] at h
    injection h with h
    exact .inr ⟨hp, h.symm⟩

/-! What no command changes. -/

@[simp] theorem effect_guardCnt (i : Instr) (s : State) : (effect i s).guardCnt = s.guardCnt := by cases i <;> rfl
@[simp] theorem effect_txEmpty (i : Instr) (s : State) : (effect i s).txEmpty = s.txEmpty := by cases i <;> rfl
@[simp] theorem effect_fcNrdy (i : Instr) (s : State) : (effect i s).fcNrdy = s.fcNrdy := by cases i <;> rfl
@[simp] theorem effect_txWr (i : Instr) (s : State) : (effect i s).txWr = s.txWr := by cases i <;> rfl
@[simp] theorem effect_txData (i : Instr) (s : State) : (effect i s).txData = s.txData := by cases i <;> rfl
@[simp] theorem effect_wire (i : Instr) (s : State) : (effect i s).wire = s.wire := by cases i <;> rfl
@[simp] theorem effect_pastWires (i : Instr) (s : State) : (effect i s).pastWires = s.pastWires := by cases i <;> rfl
@[simp] theorem effect_program (i : Instr) (s : State) : (effect i s).program = s.program := by cases i <;> rfl
@[simp] theorem effect_todo (i : Instr) (s : State) : (effect i s).todo = s.todo := by cases i <;> rfl
@[simp] theorem effect_mem (i : Instr) (s : State) : (effect i s).mem = s.mem := by cases i <;> rfl
@[simp] theorem effect_turns (i : Instr) (s : State) : (effect i s).turns = s.turns := by cases i <;> rfl

/-- Only CSUM.RESET and CSUM.UPDATE change the accumulator. -/
theorem effect_acc {i : Instr} {s : State} (h : (effect i s).acc ≠ s.acc) :
    i = .csumReset ∨ ∃ b, i = .csumUpdate b := by
  cases i with
  | csumReset => exact .inl rfl
  | csumUpdate b => exact .inr ⟨b, rfl⟩
  | csumValue | txSendByte b | fcStatus => exact absurd rfl h

/-- Only CSUM.RESET changes the mark of a written accumulator, and it raises it. -/
theorem effect_accWritten (i : Instr) (s : State) :
    (i = .csumReset ∧ (effect i s).accWritten = true) ∨ (effect i s).accWritten = s.accWritten := by
  cases i with
  | csumReset => exact .inl ⟨rfl, rfl⟩
  | csumUpdate b | csumValue | txSendByte b | fcStatus => exact .inr rfl

/-- A command may settle the sample; it does not unsettle it. -/
theorem effect_fcUnsettled {i : Instr} {s : State} (h : (effect i s).fcUnsettled = true) : s.fcUnsettled = true := by
  cases i with
  | csumReset | csumUpdate b | csumValue | txSendByte b => exact h
  | fcStatus => exact absurd h (by simp [effect])

/-! ### What no block step changes -/

/-- What the three updates of R96 leave alone, a block step leaves alone. -/
theorem blockStep_keeps {α : Type} (f : State → α) (s : State) (hs : f (afterSample s) = f s)
    (hw : f (writePending (afterSample s)) = f s) (hg : f (guardStep s) = f s) : f (blockStep s) = f s := by
  rcases blockStep_cases s with ⟨-, e⟩ | ⟨-, -, e⟩ | ⟨-, -, e⟩ | ⟨-, e⟩ <;> rw [e] <;> assumption

@[simp] theorem blockStep_acc (s : State) : (blockStep s).acc = s.acc := blockStep_keeps State.acc s rfl rfl rfl
@[simp] theorem blockStep_accWritten (s : State) : (blockStep s).accWritten = s.accWritten :=
  blockStep_keeps State.accWritten s rfl rfl rfl
@[simp] theorem blockStep_pend (s : State) : (blockStep s).pend = s.pend := blockStep_keeps State.pend s rfl rfl rfl
@[simp] theorem blockStep_fcNrdy (s : State) : (blockStep s).fcNrdy = s.fcNrdy :=
  blockStep_keeps State.fcNrdy s rfl rfl rfl
@[simp] theorem blockStep_pastWires (s : State) : (blockStep s).pastWires = s.pastWires :=
  blockStep_keeps State.pastWires s rfl rfl rfl
@[simp] theorem blockStep_responses (s : State) : (blockStep s).responses = s.responses :=
  blockStep_keeps State.responses s rfl rfl (guardStep_responses s)
@[simp] theorem blockStep_program (s : State) : (blockStep s).program = s.program := (blockStep_master_side s).2.1
@[simp] theorem blockStep_todo (s : State) : (blockStep s).todo = s.todo := (blockStep_master_side s).2.2.1
@[simp] theorem blockStep_mem (s : State) : (blockStep s).mem = s.mem := (blockStep_master_side s).1

/-- A block step leaves `tx_empty`, or clears it in WAIT by the write (R20, R96). -/
theorem blockStep_txEmpty (s : State) :
    (blockStep s).txEmpty = s.txEmpty ∨ (s.phase = .wait ∧ (blockStep s).txEmpty = false) := by
  rcases blockStep_cases s with ⟨-, e⟩ | ⟨hp, -, e⟩ | ⟨-, -, e⟩ | ⟨-, e⟩
  · exact .inl (by rw [e])
  · exact .inr ⟨hp, by rw [e]; rfl⟩
  · exact .inl (by rw [e]; rfl)
  · exact .inl (by rw [e]; rfl)

/-! ### A step, turn by turn -/

/-- A movement within a step that neither samples nor executes leaves the level at its last place and nothing else (R86). -/
theorem levelsMoved_levelsMove (vs : List Bool) (s : State) :
    levelsMoved vs s.fcUnsettled (levelsMove vs s) = { s with fcNrdy := vs.getLastD s.fcNrdy } := by
  have mark (b : Bool) : (s.fcUnsettled && (s.fcUnsettled || b)) = s.fcUnsettled := by cases s.fcUnsettled <;> rfl
  simp only [levelsMoved, levelsMove, mark]

theorem masterTurn_busy {s : State} (h : s.phase ≠ .idle) : masterTurn s = .next s := by
  simp [masterTurn, cmdReady_iff, h]

theorem masterTurn_present {s : State} {w : Word} {todo : List MasterOp} {i : Instr} (hp : s.phase = .idle)
    (ha : s.masterAct = .present w todo) (hd : decode w = .ok i) : masterTurn s = exec i (setTodo todo s) := by
  simp [masterTurn, (cmdReady_iff s).2 hp, ha, presentWord, hd]

theorem step_master {s : State} {vs : List Bool} (h : s.nextTurn = .master vs) :
    step s = onNext (levelsMoved vs s.fcUnsettled) (masterTurn (levelsMove vs (strobesLow s.dropTurn))) := by
  simp [step, takeTurn, h]

theorem step_block {s : State} {vs : List Bool} (h : s.nextTurn = .block vs) :
    step s = .next (levelsMoved vs s.fcUnsettled (blockStep (levelsMove vs (strobesLow s.dropTurn)))) := by
  simp [step, takeTurn, h]

/-- What a step can be: one constructor for each thing that the agent whose turn it is can do (R22, R27, R96). -/
inductive StepKind (s : State) : State → Prop
  /-- a hardware reset -/
  | reset : s.nextTurn = .reset → StepKind s (restart s.dropTurn)
  /-- the block's own step -/
  | block (vs : List Bool) : s.nextTurn = .block vs →
      StepKind s (levelsMoved vs s.fcUnsettled (blockStep (levelsMove vs (strobesLow s.dropTurn))))
  /-- a cycle of the guard delay -/
  | guardTick : s.nextTurn = .guardTick → StepKind s (guardTick (strobesLow s.dropTurn))
  /-- the far end between two steps -/
  | fcDrive (v : Bool) : s.nextTurn = .fcDrive v → StepKind s (fcDrive v (strobesLow s.dropTurn))
  /-- the UART -/
  | uartDrain : s.nextTurn = .uartDrain → StepKind s (uartDrain (strobesLow s.dropTurn))
  /-- the master has nothing to do, or the port is busy -/
  | masterRests (vs : List Bool) : s.nextTurn = .master vs →
      StepKind s (levelsMoved vs s.fcUnsettled (levelsMove vs (strobesLow s.dropTurn)))
  /-- an action of the master's own -/
  | masterOwn (vs : List Bool) (todo : List MasterOp) (m : Memory) : s.nextTurn = .master vs →
      s.masterAct = .own todo m →
      StepKind s (levelsMoved vs s.fcUnsettled (actOwn todo m (levelsMove vs (strobesLow s.dropTurn))))
  /-- a command -/
  | command (vs : List Bool) (todo : List MasterOp) (i : Instr) : s.nextTurn = .master vs → s.phase = .idle →
      s.executes = some i →
      StepKind s (levelsMoved vs s.fcUnsettled (effect i (setTodo todo (levelsMove vs (strobesLow s.dropTurn)))))

theorem stepKind_of_step {s t : State} (h : step s = .next t) : StepKind s t := by
  rcases step_next h with ⟨hn, rfl⟩ | ⟨vs, hn, rfl⟩ | ⟨hn, rfl⟩ | ⟨v, hn, rfl⟩ | ⟨hn, rfl⟩ | ⟨vs, u, hn, hm, rfl⟩
  · exact .reset hn
  · exact .block vs hn
  · exact .guardTick hn
  · exact .fcDrive v hn
  · exact .uartDrain hn
  · rcases masterTurn_next hm with ⟨rfl, -⟩ | ⟨-, todo, m, ha, rfl⟩ | ⟨hp, w, todo, i, ha, hd, hx⟩
    · exact .masterRests vs hn
    · exact .masterOwn vs todo m hn ha
    · rcases exec_next hx with ⟨-, rfl⟩ | ⟨hb, -⟩
      · exact .command vs todo i hn hp (executes_of_decode_ok (presented_eq_some.2 ⟨⟨vs, hn⟩, hp, todo, ha⟩) hd)
      · exact absurd hp hb

/-! ### The command port -/

/-- Settles O5: the master's turn at a ready port is exec, and a level at rest has nothing to put back after it. -/
theorem stepRunsPresentedCommand : Obligations.StepRunsPresentedCommand := by
  have moving : ∀ s vs w todo i, s.nextTurn = .master vs → s.phase = .idle → s.masterAct = .present w todo →
      decode w = .ok i →
      step s = onNext (levelsMoved vs s.fcUnsettled) (exec i (setTodo todo (levelsMove vs (strobesLow s.dropTurn)))) := by
    intro s vs w todo i hn hp ha hd
    exact (step_master hn).trans (congrArg _ (masterTurn_present hp ha hd))
  refine ⟨fun s w todo i hn hp ha hd => ?_, moving⟩
  have ready : (setTodo todo (strobesLow s.dropTurn)).phase = .idle := hp
  rw [moving s [] w todo i hn hp ha hd, levelsMove_nil, exec_idle ready, onNext]
  exact congrArg _ (levelsMoved_nil effect_fcUnsettled)

/-- Settles O7: exec and the master's turn both begin at `cmd_ready`. -/
theorem busyPortTakesNoCommand : Obligations.BusyPortTakesNoCommand := by
  refine ⟨fun i s hp => ⟨by simp [State.cmdReady, State.busy, hp], exec_busy hp i⟩, fun s vs hp hn => ?_⟩
  have busy : (levelsMove vs (strobesLow s.dropTurn)).phase ≠ .idle := hp
  rw [step_master hn, masterTurn_busy busy, onNext]
  exact congrArg _ (levelsMoved_levelsMove vs (strobesLow s.dropTurn))

/-! ### Who changes what -/

/-- Settles O20, by the kind of the step. -/
theorem accWrittenOnlyByItsCommands : Obligations.AccWrittenOnlyByItsCommands := by
  intro s t h
  cases stepKind_of_step h with
  | reset hn => simp [hn]
  | command vs todo i _ _ hx =>
    refine ⟨fun hne => .inr ?_, ?_⟩
    · simpa [hx] using effect_acc hne
    · rcases effect_accWritten i (setTodo todo (levelsMove vs (strobesLow s.dropTurn))) with ⟨rfl, hw⟩ | hw
      · simp [hx, hw]
      · simp_all
  | block vs _ | masterRests vs _ | masterOwn vs todo m _ _ | guardTick _ | fcDrive v _ | uartDrain _ => simp_all

/-- Settles O36, by the kind of the step. -/
theorem levelsChangeOnlyByTheirOwners : Obligations.LevelsChangeOnlyByTheirOwners := by
  intro s t h
  cases stepKind_of_step h with
  | block vs hn =>
    refine ⟨by simp [hn, Turn.drives], ?_⟩
    rcases blockStep_txEmpty (levelsMove vs (strobesLow s.dropTurn)) with he | ⟨hp, he⟩
    · simp_all
    · simp_all [Turn.isBlock]
  | reset hn | guardTick hn | fcDrive v hn | uartDrain hn | masterRests vs hn | masterOwn vs todo m hn _
  | command vs todo i hn _ _ => simp_all [Turn.drives]

/-- Settles O32: a level at rest leaves the sample determined, and every step but a reset ends with the mark no higher than
it began. -/
theorem sampleIsTheLevelUnlessItChanges : Obligations.SampleIsTheLevelUnlessItChanges := by
  have settled : ∀ s : State, s.fcUnsettled = false → s.sampleFc = s.fcNrdy := fun s h => by simp [State.sampleFc, h]
  refine ⟨settled, fun s => seenFc_mem, fun s h hv => ?_, fun s t h hs ht => ?_⟩
  · have still : (levelsMove s.nextTurn.drives s).fcUnsettled = false := by simpa [h] using hv
    exact settled _ still
  · cases stepKind_of_step h with
    | reset hn => exact hn
    | block vs _ | masterRests vs _ | masterOwn vs todo m _ _ | command vs todo i _ _ _
    | guardTick _ | fcDrive v _ | uartDrain _ => simp [hs] at ht

/-! ### Frames -/

/-- Settles O21: at a ready port the frame is read off the three effects. -/
theorem checksumCommandsFrame : Obligations.ChecksumCommandsFrame := by
  intro i s t hi h
  rcases exec_next h with ⟨-, rfl⟩ | ⟨-, rfl⟩
  · rcases hi with rfl | ⟨b, rfl⟩ | rfl <;> simp [effect]
  · simp

/-- Settles O22: the effects read nothing but the accumulator, its mark and the operand. -/
theorem checksumIgnoresTheGate : Obligations.ChecksumIgnoresTheGate := by
  intro i s₁ s₂ t₁ t₂ hi hp₁ hp₂ hacc hw h₁ h₂
  obtain rfl : effect i s₁ = t₁ := by simpa [exec_idle hp₁] using h₁
  obtain rfl : effect i s₂ = t₂ := by simpa [exec_idle hp₂] using h₂
  rcases hi with rfl | ⟨b, rfl⟩ | rfl <;> simp [effect, hacc, hw]

/-- Settles O27: the frames of the two effects, and of a block step between the two ends of a movement. -/
theorem gateFrame : Obligations.GateFrame := by
  refine ⟨fun i s t hi h => ?_, fun s vs t hn h => ?_⟩
  · rcases exec_next h with ⟨-, rfl⟩ | ⟨-, rfl⟩
    · rcases hi with ⟨b, rfl⟩ | rfl <;> simp [effect]
    · simp
  · rw [step_block hn] at h
    injection h with h
    subst h
    simp

/-! ### After a hardware reset -/

/-- Settles O38: each value is the one written in `State.reset` or in `foldConst`. -/
theorem resetStateValues : Obligations.ResetStateValues := by
  refine ⟨rfl, rfl, ?_, rfl, rfl, rfl, rfl, rfl, rfl, rfl⟩
  decide

/-- Settles O49: after a reset the strobes are low, the phase is IDLE and the lists are empty. -/
theorem resetStateSatisfiesInvariant : Obligations.ResetStateSatisfiesInvariant where
  memCanonical := reset_mem_wf
  guardCntOff _ := rfl
  guardCntLe := Nat.zero_le _
  writeStrobe h := by cases h
  doneIdle _ := rfl
  rspWithDone _ h := by cases h
  responsesLePos := Nat.le_refl 0
  guardWrote h := by cases h

/-! ### The invariant, one lemma per update

The invariant does not look at the accumulator, the far end's level, the program or the schedule. -/

theorem inv_zeroAcc {s : State} (h : s.Inv) : (zeroAcc s).Inv := { h with }
theorem inv_setAcc {s : State} (v : Byte) (h : s.Inv) : (setAcc v s).Inv := { h with }
theorem inv_afterSample {s : State} (h : s.Inv) : (afterSample s).Inv := { h with }
theorem inv_setTodo {s : State} (todo : List MasterOp) (h : s.Inv) : (setTodo todo s).Inv := { h with }
theorem inv_dropTurn {s : State} (h : s.Inv) : s.dropTurn.Inv := { h with }
theorem inv_fcDrive {s : State} (v : Bool) (h : s.Inv) : (fcDrive v s).Inv := { h with }
theorem inv_levelsMove {s : State} (vs : List Bool) (h : s.Inv) : (levelsMove vs s).Inv := { h with }
theorem inv_levelsMoved {s : State} (vs : List Bool) (u : Bool) (h : s.Inv) : (levelsMoved vs u s).Inv := { h with }

/-- With the strobes low there is nothing to hold of them. -/
theorem inv_strobesLow {s : State} (h : s.Inv) : (strobesLow s).Inv :=
  { h with
    writeStrobe := fun hw => by cases hw
    doneIdle := fun hd => by cases hd
    rspWithDone := fun _ hr => by cases hr }

theorem inv_actOwn {s : State} {m : Memory} (todo : List MasterOp) (hm : m.wf = true) (h : s.Inv) :
    (actOwn todo m s).Inv :=
  { h with memCanonical := hm }

/-- A reset leaves the memory and puts everything else at its value of R28. -/
theorem inv_restart {s : State} (h : s.Inv) : (restart s).Inv where
  memCanonical := h.memCanonical
  guardCntOff _ := rfl
  guardCntLe := Nat.zero_le _
  writeStrobe hw := by cases hw
  doneIdle _ := rfl
  rspWithDone _ hr := by cases hr
  responsesLePos := Nat.le_refl 0
  guardWrote hp := by cases hp

/-- A command completes in IDLE, with at most one response, which becomes the last. -/
theorem inv_complete {s : State} (r : Option Byte) (hp : s.phase = .idle) (h : s.Inv) : (complete r s).Inv :=
  { h with
    doneIdle := fun _ => hp
    rspWithDone := fun v hr => by
      obtain rfl : r = some v := hr
      simp
    responsesLePos := by
      have hle := h.responsesLePos
      cases r <;> simp <;> omega }

/-- Acceptance leaves IDLE, so no strobe may be up. -/
theorem inv_acceptSend {s : State} (b : Byte) (hp : s.phase = .idle) (hd : s.done = false) (h : s.Inv) :
    (acceptSend b s).Inv :=
  { h with
    guardCntOff := fun _ => h.guardCntOff (by simp [hp])
    writeStrobe := fun hw => by
      obtain ⟨hg, -⟩ := h.writeStrobe hw
      simp [hp] at hg
    doneIdle := fun hd' => by simp [hd] at hd'
    guardWrote := fun hg => by cases hg }

/-- The write puts `pend` last on the wire and loads the guard counter (R84, R131). -/
theorem inv_writePending {s : State} (hd : s.done = false) (h : s.Inv) : (writePending s).Inv :=
  { h with
    guardCntOff := fun hg => absurd rfl hg
    guardCntLe := Nat.le_refl _
    writeStrobe := fun _ => ⟨rfl, rfl, by simp⟩
    doneIdle := fun hd' => by simp [hd] at hd'
    guardWrote := fun _ => by simp }

/-- The end of a guard delay completes the send: the counter is back at 0 in IDLE. -/
theorem inv_guardStep {s : State} (hw : s.txWr = false) (h : s.Inv) : (guardStep s).Inv :=
  inv_complete none rfl
    { h with
      guardCntOff := fun _ => rfl
      guardCntLe := Nat.zero_le _
      writeStrobe := fun hw' => by simp [hw] at hw'
      doneIdle := fun _ => rfl
      guardWrote := fun hg => by cases hg }

theorem inv_guardTick {s : State} (h : s.Inv) : (guardTick s).Inv :=
  { h with
    guardCntOff := fun hp => by simp [h.guardCntOff hp]
    guardCntLe := (Nat.sub_le _ _).trans h.guardCntLe }

/-- The UART drains after the step of the write, so `tx_wr` is low. -/
theorem inv_uartDrain {s : State} (hw : s.txWr = false) (h : s.Inv) : (uartDrain s).Inv :=
  { h with writeStrobe := fun hw' => by simp [hw] at hw' }

/-- What the master writes into its memory keeps the memory canonical. -/
theorem masterAct_own_wf {s : State} {todo : List MasterOp} {m : Memory} (h : s.Inv)
    (ha : s.masterAct = .own todo m) : m.wf = true := by
  rcases actOf_own_mem ha with rfl | ⟨a, v, rfl⟩
  · exact h.memCanonical
  · exact Memory.write_wf a v h.memCanonical

theorem inv_effect {s : State} (i : Instr) (hp : s.phase = .idle) (hd : s.done = false) (h : s.Inv) :
    (effect i s).Inv := by
  cases i with
  | csumReset => exact inv_complete _ hp (inv_zeroAcc h)
  | csumUpdate b => exact inv_complete _ hp (inv_setAcc _ h)
  | csumValue => exact inv_complete _ hp h
  | txSendByte b => exact inv_acceptSend b hp hd h
  | fcStatus => exact inv_complete _ hp (inv_afterSample h)

theorem inv_blockStep {s : State} (hd : s.done = false) (hw : s.txWr = false) (h : s.Inv) : (blockStep s).Inv := by
  rcases blockStep_cases s with ⟨-, e⟩ | ⟨-, -, e⟩ | ⟨-, -, e⟩ | ⟨-, e⟩ <;> rw [e]
  · exact h
  · exact inv_writePending hd (inv_afterSample h)
  · exact inv_afterSample h
  · exact inv_guardStep hw h

/-- Settles O50: an agent acts with the strobes of the step before low, and each thing it can do keeps the invariant. -/
theorem stepKeepsInvariant : Obligations.StepKeepsInvariant := by
  intro s t h hs
  have low : (strobesLow s.dropTurn).Inv := inv_strobesLow (inv_dropTurn h)
  cases stepKind_of_step hs with
  | reset _ => exact inv_restart (inv_dropTurn h)
  | block vs _ => exact inv_levelsMoved _ _ (inv_blockStep rfl rfl (inv_levelsMove vs low))
  | guardTick _ => exact inv_guardTick low
  | fcDrive v _ => exact inv_fcDrive v low
  | uartDrain _ => exact inv_uartDrain rfl low
  | masterRests vs _ => exact inv_levelsMoved _ _ (inv_levelsMove vs low)
  | masterOwn vs todo m _ ha =>
    exact inv_levelsMoved _ _ (inv_actOwn todo (masterAct_own_wf h ha) (inv_levelsMove vs low))
  | command vs todo i _ hp _ => exact inv_levelsMoved _ _ (inv_effect i hp rfl (inv_setTodo todo (inv_levelsMove vs low)))

end Sys2Proof.Machine

/-! PROOFS, 20_memory.md: the wire grows only through the gate (R39, R40), each accepted byte is on it once and in order
(R38), the master's stores (R30), and the layout of a frame (R31). -/

namespace Sys2Proof.Machine

/-! ### A step that executes a command, and one that does not -/

/-- The command executed is the decoded word presented. -/
theorem executes_eq_some {s : State} {i : Instr} :
    s.executes = some i ↔ ∃ w, s.presented = some w ∧ decode w = .ok i := by
  have ok (w : Word) : (decode w).toOption = some i ↔ decode w = .ok i := by
    cases decode w <;> simp [Except.toOption]
  simp [State.executes, Option.bind_eq_some_iff, ok]

/-- A step that executes a command is the command's effect between the two ends of the level's movement. -/
theorem step_of_executes {s : State} {i : Instr} (h : s.executes = some i) :
    s.phase = .idle ∧ ∃ vs todo,
      step s = .next (levelsMoved vs s.fcUnsettled (effect i (setTodo todo (levelsMove vs (strobesLow s.dropTurn))))) := by
  obtain ⟨w, hw, hd⟩ := executes_eq_some.1 h
  obtain ⟨⟨vs, hn⟩, hp, todo, ha⟩ := presented_eq_some.1 hw
  have ready : (levelsMove vs (strobesLow s.dropTurn)).phase = .idle := hp
  have readyAfter : (setTodo todo (levelsMove vs (strobesLow s.dropTurn))).phase = .idle := hp
  refine ⟨hp, vs, todo, ?_⟩
  rw [step_master hn, masterTurn_present ready ha hd, exec_idle readyAfter, onNext]

/-! ### The byte in flight (R17) -/

@[simp] theorem inFlight_acceptSend (b : Byte) (s : State) : (acceptSend b s).inFlight = [b] := rfl
@[simp] theorem inFlight_writePending (s : State) : (writePending s).inFlight = [] := rfl
@[simp] theorem inFlight_guardStep (s : State) : (guardStep s).inFlight = [] := rfl

theorem inFlight_of_wait {s : State} (h : s.phase = .wait) : s.inFlight = [s.pend] := by simp [State.inFlight, h]

theorem inFlight_of_ne_wait {s : State} (h : s.phase ≠ .wait) : s.inFlight = [] := by
  cases hp : s.phase with
  | wait => exact absurd hp h
  | idle | guard => simp [State.inFlight, hp]

theorem accepts_of_not_executes {s : State} (h : s.executes = none) : s.accepts = [] := by simp [State.accepts, h]

/-- At a ready port the byte in flight after a command is the one it accepts. -/
theorem inFlight_effect {s u : State} {i : Instr} (h : s.executes = some i) (hu : u.phase = .idle) :
    (effect i u).inFlight = s.accepts := by
  cases i with
  | txSendByte b => simp [State.accepts, h, effect]
  | csumReset | csumUpdate b | csumValue | fcStatus => simp [State.accepts, h, effect, inFlight_of_ne_wait, hu]

/-! ### The wire in a block step -/

/-- A block step writes `pend` through the open gate, or leaves the wire and the write strobe (R39, R40). -/
theorem blockStep_write (s : State) :
    ((blockStep s).wire = s.wire ∧ (blockStep s).txWr = s.txWr) ∨
    (s.phase = .wait ∧ s.sampleFc = false ∧ s.txEmpty = true ∧ blockStep s = writePending (afterSample s)) := by
  rcases blockStep_cases s with ⟨-, e⟩ | ⟨hp, hg, e⟩ | ⟨-, -, e⟩ | ⟨-, e⟩
  · exact .inl (by simp [e])
  · obtain ⟨hs, he⟩ := (gateOpen_iff s).1 hg
    exact .inr ⟨hp, hs, he, e⟩
  · exact .inl (by simp [e])
  · exact .inl (by simp [e])

/-- The write moves the byte in flight onto the wire; no other block step touches either. -/
theorem blockStep_wire_inFlight (s : State) :
    (blockStep s).wire ++ (blockStep s).inFlight = s.wire ++ s.inFlight := by
  rcases blockStep_cases s with ⟨-, e⟩ | ⟨hp, -, e⟩ | ⟨-, -, e⟩ | ⟨hp, e⟩
  · rw [e]
  · simp [e, inFlight_of_wait hp]
  · rw [e]; rfl
  · simp [e, inFlight_of_ne_wait, hp]

/-- Settles O34, by the kind of the step: a block step may write, and no other step but a reset touches the wire. -/
theorem wireGrowsOnlyThroughTheGate : Obligations.WireGrowsOnlyThroughTheGate := by
  intro s t h hr
  cases stepKind_of_step h with
  | reset hn => exact absurd hn hr
  | block vs hn =>
    rcases blockStep_write (levelsMove vs (strobesLow s.dropTurn)) with ⟨hw, hx⟩ | ⟨hp, hs, he, e⟩
    · exact .inl ⟨hw, hx⟩
    · rw [sampleFc_block hn] at hs
      exact .inr ⟨by simp [hn, Turn.isBlock], hp, hs, he, by simp [e]⟩
  | masterRests vs _ | masterOwn vs todo m _ _ | command vs todo i _ _ _ | guardTick _ | fcDrive v _ | uartDrain _ =>
    exact .inl (by simp)

/-! ### Every accepted byte, once and in order (R38, R85) -/

/-- A step without a reset adds to the wire and the byte in flight exactly the byte it accepts, if it accepts one. -/
theorem step_wire_inFlight {s t : State} (h : step s = .next t) (hr : s.nextTurn ≠ .reset) :
    t.wire ++ t.inFlight = s.wire ++ s.inFlight ++ s.accepts := by
  cases hx : s.executes with
  | some i =>
    obtain ⟨hp, vs, todo, e⟩ := step_of_executes hx
    rw [e] at h
    injection h with h
    subst h
    have accepted : (effect i (setTodo todo (levelsMove vs (strobesLow s.dropTurn)))).inFlight = s.accepts :=
      inFlight_effect hx hp
    simp [accepted, inFlight_of_ne_wait, hp]
  | none =>
    rw [accepts_of_not_executes hx, List.append_nil]
    cases stepKind_of_step h with
    | reset hn => exact absurd hn hr
    | command vs todo i _ _ hi => simp [hx] at hi
    | block vs _ => exact blockStep_wire_inFlight (levelsMove vs (strobesLow s.dropTurn))
    | masterRests vs _ | masterOwn vs todo m _ _ | guardTick _ | fcDrive v _ | uartDrain _ => rfl

theorem noReset_of_step {s t : State} (h : step s = .next t) (hs : s.NoReset) : t.NoReset := by
  unfold State.NoReset
  rw [step_turns h]
  exact fun ht => hs (List.mem_of_mem_tail ht)

theorem acceptedIn_succ (k : Nat) {s t : State} (h : step s = .next t) :
    acceptedIn (k + 1) s = s.accepts ++ acceptedIn k t := by
  simp [acceptedIn, h]

/-- Settles O35, by induction on the number of steps: what each step adds is what it accepts. -/
theorem eachAcceptedByteIsWrittenOnceInOrder : Obligations.EachAcceptedByteIsWrittenOnceInOrder := by
  intro k
  induction k with
  | zero =>
    intro s t _ h
    obtain rfl := reaches_zero.1 h
    exact (List.append_nil _).symm
  | succ k ih =>
    intro s t hs h
    obtain ⟨u, hu, hrun⟩ := reaches_succ.1 h
    calc t.wire ++ t.inFlight
      _ = u.wire ++ u.inFlight ++ acceptedIn k u := ih u t (noReset_of_step hu hs) hrun
      _ = s.wire ++ s.inFlight ++ s.accepts ++ acceptedIn k u := by
        rw [step_wire_inFlight hu (nextTurn_ne_reset hs)]
      _ = s.wire ++ s.inFlight ++ acceptedIn (k + 1) s := by rw [acceptedIn_succ k hu, List.append_assoc _ s.accepts]

/-! ### The master's memory (R30) -/

theorem masterTurn_own {s : State} {todo : List MasterOp} {m : Memory} (hp : s.phase = .idle)
    (ha : s.masterAct = .own todo m) : masterTurn s = .next (actOwn todo m s) := by
  simp [masterTurn, (cmdReady_iff s).2 hp, ha]

theorem masterAct_storeRsp {s : State} {a : Nat} {rest : List MasterOp} (h : s.todo = .storeRsp a :: rest) :
    s.masterAct = .own rest (s.mem.write a s.lastResponse) := by
  simp [State.masterAct, h, actOf]

/-- Settles O41: the step is one write to the memory, and the rules of `Memory.write` say what it does. -/
theorem masterStoresTheResponse : Obligations.MasterStoresTheResponse := by
  intro s vs a rest hp hn ht hm
  have ready : (levelsMove vs (strobesLow s.dropTurn)).phase = .idle := hp
  have act : (levelsMove vs (strobesLow s.dropTurn)).masterAct = .own rest (s.mem.write a s.lastResponse) :=
    masterAct_storeRsp ht
  have stored : step s = .next (levelsMoved vs s.fcUnsettled
      (actOwn rest (s.mem.write a s.lastResponse) (levelsMove vs (strobesLow s.dropTurn)))) := by
    rw [step_master hn, masterTurn_own ready act, onNext]
  exact ⟨_, stored, Memory.read_write_same s.mem a s.lastResponse, fun b hb => Memory.read_write_other s.mem _ hb,
    Memory.write_wf a _ hm, rfl, rfl⟩

/-! ### The frame (R31, R100) and the receiver's check (R70) -/

theorem checksum_append_singleton (bs : List Byte) (c : Byte) : checksum (bs ++ [c]) = updated (checksum bs) c := by
  simp [checksum]

theorem updated_self (c : Byte) : updated c c = 0 := by
  rw [updated, BitVec.xor_self]
  decide

theorem checksum_withChecksum (bs : List Byte) : checksum (withChecksum bs) = 0 := by
  rw [withChecksum, checksum_append_singleton, updated_self]

/-- Settles O42: the layout is read off `frameData`, and any data followed by its checksum folds to zero. -/
theorem frameLayoutAndReceiverCheck : Obligations.FrameLayoutAndReceiverCheck := by
  intro u sp d0 d1 d2 d3 d4
  exact ⟨rfl, rfl, rfl, rfl, rfl, rfl, rfl, rfl, rfl, rfl, checksum_withChecksum (frameData u sp d0 d1 d2 d3 d4)⟩

end Sys2Proof.Machine

/-! PROOFS, 30_encoding.md: a command word and its fields (R47), decoder and encoder (R57), the opcode map (R48), the
reserved words (R51), and TX.SENDSTRING (R56). -/

namespace Sys2Proof

/-! ### A word is its three fields (R47) -/

@[simp] theorem fieldsOf_wordOf (f : FormatC) : fieldsOf (wordOf f) = f := by
  have zero : (wordOf f).extractLsb' 12 4 = f.zero := by
    rw [wordOf, BitVec.extractLsb'_append_eq_of_le (by decide)]
    exact BitVec.extractLsb'_append_eq_left
  have op : (wordOf f).extractLsb' 8 4 = f.op := by
    rw [wordOf, BitVec.extractLsb'_append_eq_of_le (by decide)]
    exact BitVec.extractLsb'_append_eq_right
  have imm8 : (wordOf f).extractLsb' 0 8 = f.imm8 := BitVec.extractLsb'_append_eq_right
  rw [fieldsOf, zero, op, imm8]

@[simp] theorem wordOf_fieldsOf (w : Word) : wordOf (fieldsOf w) = w := by
  have high : w.extractLsb' 12 4 ++ w.extractLsb' 8 4 = w.extractLsb' 8 8 :=
    BitVec.extractLsb'_append_extractLsb'_eq_extractLsb' rfl
  have all : w.extractLsb' 8 8 ++ w.extractLsb' 0 8 = w.extractLsb' 0 16 :=
    BitVec.extractLsb'_append_extractLsb'_eq_extractLsb' rfl
  simp only [wordOf, fieldsOf, high, all, BitVec.extractLsb'_eq_self]

theorem fieldsOf_eq_iff {w : Word} {f : FormatC} : fieldsOf w = f ↔ wordOf f = w :=
  ⟨fun h => h ▸ wordOf_fieldsOf w, fun h => h ▸ fieldsOf_wordOf f⟩

/-- The operand stands in the low byte, beneath a byte whose high field is zero. -/
theorem wordOf_eq_or (op : BitVec 4) (b : Byte) :
    wordOf ⟨0, op, b⟩ = (0#4 ++ op).setWidth 16 <<< 8 ||| b.setWidth 16 := by
  have h := BitVec.setWidth_append_eq_shiftLeft_setWidth_or (b := 0#4 ++ op) (b' := b) (w'' := 16)
  rwa [BitVec.setWidth_eq] at h

/-! ### The decoder answers the fields' command, or their reason (R51, R57) -/

theorem fields_wf : ∀ i : Instr, i.fields.wf
  | .csumReset => Laws.FormatFields.csumReset
  | .csumUpdate b => Laws.FormatFields.csumUpdate b
  | .csumValue => Laws.FormatFields.csumValue
  | .txSendByte b => Laws.FormatFields.txSendByte b
  | .fcStatus => Laws.FormatFields.fcStatus

/-- `d` is what the decoder owes for the fields `f`: their command, or the reason they are reserved. -/
def Answers (f : FormatC) (d : Except Reserved Instr) : Prop :=
  (∃ i, d = .ok i ∧ f = i.fields) ∨ ∃ why, d = .error why ∧ f.reserved = some why

/-- For a command without an operand a zero operand is legal, and any other is the reason. -/
theorem answers_noOperand {f : FormatC} {i : Instr} (hi : f.imm8 = 0 → f = i.fields)
    (hf : f.imm8 ≠ 0 → f.reserved = some .operand) : Answers f (noOperand f.imm8 i) := by
  by_cases hb : f.imm8 = 0
  · exact .inl ⟨i, if_pos hb, hi hb⟩
  · exact .inr ⟨.operand, if_neg hb, hf hb⟩

theorem answers_decode (w : Word) : Answers (fieldsOf w) (decode w) := by
  unfold decode
  generalize fieldsOf w = f
  obtain ⟨zero, op, b⟩ := f
  by_cases hz : zero = 0
  · subst hz
    simp only [ne_eq, not_true_eq_false, if_false]
    split
    next h =>
      obtain rfl : op = 1 := BitVec.eq_of_toNat_eq h
      exact answers_noOperand (f := ⟨0, 1, b⟩) (by rintro rfl; rfl) (by simp [FormatC.reserved, takesOperand])
    next h =>
      obtain rfl : op = 2 := BitVec.eq_of_toNat_eq h
      exact .inl ⟨.csumUpdate b, rfl, rfl⟩
    next h =>
      obtain rfl : op = 3 := BitVec.eq_of_toNat_eq h
      exact answers_noOperand (f := ⟨0, 3, b⟩) (by rintro rfl; rfl) (by simp [FormatC.reserved, takesOperand])
    next h =>
      obtain rfl : op = 4 := BitVec.eq_of_toNat_eq h
      exact .inl ⟨.txSendByte b, rfl, rfl⟩
    next h =>
      obtain rfl : op = 5 := BitVec.eq_of_toNat_eq h
      exact answers_noOperand (f := ⟨0, 5, b⟩) (by rintro rfl; rfl) (by simp [FormatC.reserved, takesOperand])
    next h1 h2 h3 h4 h5 =>
      have hop : op = 0 ∨ 6 ≤ op.toNat := by
        have values : op.toNat = 0 ∨ 6 ≤ op.toNat := by grind
        exact values.imp_left fun h => BitVec.eq_of_toNat_eq h
      exact .inr ⟨.opcode, rfl, if_pos hop⟩
  · exact .inr ⟨.zeroField, if_pos hz, if_pos hz⟩

@[simp] theorem decode_encode (i : Instr) : decode (encode i) = .ok i := by
  rw [encode, decode, fieldsOf_wordOf]
  cases i <;> rfl

theorem encode_injective : Function.Injective encode := fun i j h => by
  simpa [h] using (decode_encode i).symm

theorem decode_eq_ok_iff {w : Word} {i : Instr} : decode w = .ok i ↔ encode i = w := by
  refine ⟨fun h => ?_, fun h => h ▸ decode_encode i⟩
  rcases answers_decode w with ⟨j, hd, hf⟩ | ⟨why, hd, -⟩
  · obtain rfl : j = i := by simpa [hd] using h
    exact fieldsOf_eq_iff.1 hf
  · simp [hd] at h

theorem decode_eq_error_iff {w : Word} {why : Reserved} : decode w = .error why ↔ (fieldsOf w).reserved = some why := by
  rcases answers_decode w with ⟨j, hd, hf⟩ | ⟨why', hd, hr⟩
  · simp [hd, hf, fields_wf j]
  · simp [hd, hr]

/-- Settles O1: a command and a legal word have the same fields, and a word is its fields. -/
theorem decodeEncodeRoundTrip : Obligations.DecodeEncodeRoundTrip :=
  ⟨rfl, wordOf_eq_or 2, rfl, wordOf_eq_or 4, rfl, decode_encode, fun _ _ => decode_eq_ok_iff.1⟩

/-- Settles O4: each word is the encoding of its command, and the decoder inverts the encoder. -/
theorem wordsWrittenOutDecode : Obligations.WordsWrittenOutDecode :=
  ⟨decode_encode .csumReset, decode_encode (.csumUpdate 0x09), decode_encode .csumValue,
    decode_encode (.txSendByte 0x41), decode_encode .fcStatus⟩

/-! ### The reserved words (R51) -/

theorem takesOperand_eq_false_iff {op : BitVec 4} (h0 : op ≠ 0) (h6 : ¬ 6 ≤ op.toNat) :
    takesOperand op = false ↔ op = 1 ∨ op = 3 ∨ op = 5 := by
  revert op; decide

theorem reserved_iff (f : FormatC) : (∃ why, f.reserved = some why) ↔
    f.zero ≠ 0 ∨ f.op = 0 ∨ 6 ≤ f.op.toNat ∨ ((f.op = 1 ∨ f.op = 3 ∨ f.op = 5) ∧ f.imm8 ≠ 0) := by
  unfold FormatC.reserved
  split
  next hz => exact ⟨fun _ => .inl hz, fun _ => ⟨_, rfl⟩⟩
  next hz =>
    split
    next hop => exact ⟨fun _ => .inr (hop.imp_right .inl), fun _ => ⟨_, rfl⟩⟩
    next hop =>
      obtain ⟨h0, h6⟩ := not_or.1 hop
      simp only [takesOperand_eq_false_iff h0 h6, hz, h0, h6, false_or]
      split
      next h => exact ⟨fun _ => h, fun _ => ⟨_, rfl⟩⟩
      next h => exact ⟨fun ⟨_, hn⟩ => (nomatch hn), fun hr => absurd hr h⟩

/-- Settles O3: the decoder refuses a word where its fields are reserved, and the step that presents it is refused. -/
theorem reservedWordsAreRefused : Obligations.ReservedWordsAreRefused := by
  refine ⟨fun w => ?_, fun s w why => Machine.step_of_reserved⟩
  simp only [decode_eq_error_iff]
  exact reserved_iff (fieldsOf w)

/-! ### The opcode map (R48) -/

/-- A row of the map as fields: the match without its operand, and the part of the operand that must be zero. -/
def fieldRow (mnemonic : String) (op : BitVec 4) (operandMask : Byte) : OpcodeRow :=
  ⟨mnemonic, wordOf ⟨0, op, 0⟩, wordOf ⟨15, 15, operandMask⟩⟩

theorem opcodeTable_eq_fieldRows : opcodeTable =
    [fieldRow "CSUM.RESET" 1 0xff, fieldRow "CSUM.UPDATE" 2 0, fieldRow "CSUM.VALUE" 3 0xff,
     fieldRow "TX.SENDBYTE" 4 0, fieldRow "FC.STATUS" 5 0xff] := rfl

theorem wordOf_inj {f g : FormatC} : wordOf f = wordOf g ↔ f = g := by
  rw [← fieldsOf_eq_iff, fieldsOf_wordOf, eq_comm]

theorem wordOf_and (f g : FormatC) :
    wordOf f &&& wordOf g = wordOf ⟨f.zero &&& g.zero, f.op &&& g.op, f.imm8 &&& g.imm8⟩ :=
  BitVec.and_append.trans (congrArg (· ++ _) BitVec.and_append)

/-- The mask compares the two high fields whole, and the operand where the row has none. -/
theorem isRowOf_fieldRow (mnemonic : String) (op : BitVec 4) (m : Byte) (f : FormatC) :
    (fieldRow mnemonic op m).isRowOf (wordOf f) = true ↔ f.zero = 0 ∧ f.op = op ∧ f.imm8 &&& m = 0 := by
  have whole : ∀ x : BitVec 4, x &&& 15 = x := fun x => BitVec.and_allOnes
  simp only [OpcodeRow.isRowOf, fieldRow, beq_iff_eq, wordOf_and, wordOf_inj, whole, FormatC.mk.injEq]

theorem exists_instr {P : Instr → Prop} : (∃ i, P i) ↔
    P .csumReset ∨ (∃ b, P (.csumUpdate b)) ∨ P .csumValue ∨ (∃ b, P (.txSendByte b)) ∨ P .fcStatus := by
  constructor
  · rintro ⟨i, hi⟩
    cases i with
    | csumReset => exact .inl hi
    | csumUpdate b => exact .inr (.inl ⟨b, hi⟩)
    | csumValue => exact .inr (.inr (.inl hi))
    | txSendByte b => exact .inr (.inr (.inr (.inl ⟨b, hi⟩)))
    | fcStatus => exact .inr (.inr (.inr (.inr hi)))
  · rintro (h | ⟨b, h⟩ | h | ⟨b, h⟩ | h) <;> exact ⟨_, h⟩

/-- A word matches a row of the map where it decodes to a command of the row's mnemonic. -/
theorem isRowOf_iff_decode {r : OpcodeRow} (hr : r ∈ opcodeTable) (w : Word) :
    r.isRowOf w = true ↔ ∃ i, decode w = .ok i ∧ r.mnemonic = i.mnemonic := by
  have whole : ∀ b : Byte, b &&& 255#8 = b := fun _ => BitVec.and_allOnes
  simp only [decode_eq_ok_iff, encode, ← fieldsOf_eq_iff]
  rw [← wordOf_fieldsOf w, fieldsOf_wordOf]
  generalize fieldsOf w = f
  obtain ⟨zero, op, b⟩ := f
  rw [opcodeTable_eq_fieldRows] at hr
  simp only [List.mem_cons, List.not_mem_nil, or_false] at hr
  rcases hr with rfl | rfl | rfl | rfl | rfl <;> rw [isRowOf_fieldRow] <;>
    simp [exists_instr, fieldRow, Instr.mnemonic, Instr.fields, whole]

/-! ### The legal words are 515 in number (R48) -/

/-- Every byte, once. -/
def allBytes : List Byte := (List.finRange 256).map BitVec.ofFin

theorem mem_allBytes (b : Byte) : b ∈ allBytes := List.mem_map.2 ⟨b.toFin, List.mem_finRange _, rfl⟩

theorem nodup_allBytes : allBytes.Nodup :=
  (List.nodup_finRange 256).map fun _ _ h => by simpa using congrArg BitVec.toFin h

theorem length_allBytes : allBytes.length = 256 := by simp [allBytes]

/-- Every command, once. -/
def allInstrs : List Instr :=
  [.csumReset, .csumValue, .fcStatus] ++ allBytes.map .csumUpdate ++ allBytes.map .txSendByte

theorem mem_allInstrs (i : Instr) : i ∈ allInstrs := by
  cases i <;> simp [allInstrs, mem_allBytes]

theorem nodup_allInstrs : allInstrs.Nodup := by
  have updates : (allBytes.map Instr.csumUpdate).Nodup := nodup_allBytes.map fun _ _ h => Instr.csumUpdate.inj h
  have sends : (allBytes.map Instr.txSendByte).Nodup := nodup_allBytes.map fun _ _ h => Instr.txSendByte.inj h
  simp [allInstrs, List.nodup_append, updates, sends]

theorem length_allInstrs : allInstrs.length = 515 := by simp [allInstrs, length_allBytes]

theorem mem_map_encode_iff (w : Word) : w ∈ allInstrs.map encode ↔ ∃ i, decode w = .ok i := by
  simp [mem_allInstrs, decode_eq_ok_iff]

/-- Settles O2: a row matches the words of its commands, and the legal words are the encodings of the 515 commands. -/
theorem opcodeMapDecodesByMaskAndMatch : Obligations.OpcodeMapDecodesByMaskAndMatch := by
  refine ⟨rfl, ?_, ?_, allInstrs.map encode, nodup_allInstrs.map encode_injective, ?_, mem_map_encode_iff⟩
  · intro w i hd r hr
    simp [isRowOf_iff_decode hr, hd]
  · intro w why hd r hr
    simp [← Bool.not_eq_true, isRowOf_iff_decode hr, hd]
  · rw [List.length_map, length_allInstrs]

end Sys2Proof

namespace Sys2Proof.Machine

/-! ### What a step does on the master's side -/

/-- The master's side of a step from `s` to `t` (R8, R56): what it does of its program, its memory and the accumulator. -/
inductive MasterSide (s t : State) : Prop
  /-- another agent's turn, or the port is busy, or the program is over -/
  | rests : s.accepts = [] → t.todo = s.todo → t.mem = s.mem → t.acc = s.acc → MasterSide s t
  /-- an action of its own -/
  | own : s.accepts = [] → s.masterAct = .own t.todo t.mem → t.acc = s.acc → MasterSide s t
  /-- a command -/
  | command (w : Word) (i : Instr) : s.masterAct = .present w t.todo → decode w = .ok i → s.executes = some i →
      t.mem = s.mem → t.acc = (effect i s).acc → MasterSide s t

theorem executes_eq_none {s : State}
    (h : ∀ vs w todo, s.nextTurn = .master vs → s.phase = .idle → s.masterAct ≠ .present w todo) : s.executes = none := by
  refine Option.eq_none_iff_forall_ne_some.2 fun i hi => ?_
  obtain ⟨w, hw, -⟩ := executes_eq_some.1 hi
  obtain ⟨⟨vs, hn⟩, hp, todo, ha⟩ := presented_eq_some.1 hw
  exact h vs w todo hn hp ha

theorem masterSide_of_step {s t : State} (h : step s = .next t) (hr : s.nextTurn ≠ .reset) : MasterSide s t := by
  have rests : s.executes = none → t.todo = s.todo → t.mem = s.mem → t.acc = s.acc → MasterSide s t := fun hx =>
    .rests (accepts_of_not_executes hx)
  have otherAgent : (∀ vs, s.nextTurn ≠ .master vs) → s.executes = none := fun hn =>
    executes_eq_none fun vs _ _ hv => absurd hv (hn vs)
  rcases step_next h with ⟨hn, -⟩ | ⟨vs, hn, rfl⟩ | ⟨hn, rfl⟩ | ⟨v, hn, rfl⟩ | ⟨hn, rfl⟩ | ⟨vs, u, hn, hm, rfl⟩
  · exact absurd hn hr
  · exact rests (otherAgent (by simp [hn])) (by simp) (by simp) (by simp)
  · exact rests (otherAgent (by simp [hn])) (by simp) (by simp) (by simp)
  · exact rests (otherAgent (by simp [hn])) (by simp) (by simp) (by simp)
  · exact rests (otherAgent (by simp [hn])) (by simp) (by simp) (by simp)
  · rcases masterTurn_next hm with ⟨rfl, hbusy | hrest⟩ | ⟨-, todo, m, ha, rfl⟩ | ⟨hp, w, todo, i, ha, hd, hx⟩
    · exact rests (executes_eq_none fun _ _ _ _ hp => absurd hp hbusy) (by simp) (by simp) (by simp)
    · have act : s.masterAct = .rest := by simpa using hrest
      exact rests (executes_eq_none (by simp [act])) (by simp) (by simp) (by simp)
    · have act : s.masterAct = .own todo m := by simpa using ha
      exact .own (accepts_of_not_executes (executes_eq_none (by simp [act]))) (by simpa using act) (by simp)
    · rcases exec_next hx with ⟨-, rfl⟩ | ⟨hb, -⟩
      · have act : s.masterAct = .present w todo := by simpa using ha
        have executed : s.executes = some i := executes_of_decode_ok (presented_eq_some.2 ⟨⟨vs, hn⟩, hp, todo, act⟩) hd
        exact .command w i (by simpa using act) hd executed (by simp) (by cases i <;> simp [effect])
      · exact absurd hp hb

/-! ### TX.SENDSTRING (R56, R91) -/

/-- The bytes at `a` are `bs`, none of them zero, and a zero behind them. -/
def Memory.HoldsString (m : Memory) : Nat → List Byte → Prop
  | a, [] => m.read a = some 0
  | a, b :: bs => m.read a = some b ∧ b ≠ 0 ∧ m.HoldsString (a + 1) bs

theorem Memory.holdsString_of_reads {m : Memory} {a : Nat} {bs : List Byte} (hne : ∀ b ∈ bs, b ≠ 0)
    (hr : ∀ k, k < bs.length → m.read (a + k) = bs[k]?) (hz : m.read (a + bs.length) = some 0) : m.HoldsString a bs := by
  induction bs generalizing a with
  | nil => exact hz
  | cons b bs ih =>
    obtain ⟨hb, hbs⟩ := List.forall_mem_cons.1 hne
    refine ⟨hr 0 (by simp), hb, ih hbs (fun k hk => ?_) ?_⟩
    · rw [Nat.add_right_comm]
      exact hr (k + 1) (Nat.succ_lt_succ hk)
    · rw [Nat.add_right_comm]
      exact hz

theorem masterAct_sendString_nil {s : State} {a : Nat} {rest : List MasterOp} (ht : s.todo = .sendString a :: rest)
    (hm : s.mem.read a = some 0) : s.masterAct = .own rest s.mem := by
  simp [State.masterAct, ht, actOf, withByte, hm]

theorem masterAct_sendString_cons {s : State} {a : Nat} {rest : List MasterOp} {b : Byte}
    (ht : s.todo = .sendString a :: rest) (hm : s.mem.read a = some b) (hb : b ≠ 0) :
    s.masterAct = .present (encode (.txSendByte b)) (.sendString (a + 1) :: rest) := by
  simp only [State.masterAct, ht, actOf, withByte, hm, if_neg hb]

theorem masterAct_nil {s : State} (ht : s.todo = []) : s.masterAct = .rest := by
  simp [State.masterAct, ht, actOf]

/-- What is left to do is to send the string `bs`: the pseudo-instruction stands at its beginning, or it is over. -/
def State.StringLeft (s : State) (bs : List Byte) : Prop :=
  (∃ a, s.todo = [.sendString a] ∧ s.mem.HoldsString a bs) ∨ (s.todo = [] ∧ bs = [])

/-- In a step without a reset, what is left of the string is what was left without the byte accepted. -/
theorem stringLeft_of_step {s t : State} {bs : List Byte} (h : step s = .next t) (hr : s.nextTurn ≠ .reset)
    (hs : s.StringLeft bs) : ∃ bs', bs = s.accepts ++ bs' ∧ t.StringLeft bs' ∧ t.acc = s.acc := by
  cases masterSide_of_step h hr with
  | rests hx ht hm hacc =>
    refine ⟨bs, by simp [hx], ?_, hacc⟩
    simpa [State.StringLeft, ht, hm] using hs
  | own hx ha hacc =>
    rcases hs with ⟨a, ht, hm⟩ | ⟨ht, rfl⟩
    · cases bs with
      | nil =>
        rw [masterAct_sendString_nil ht hm] at ha
        injection ha with ht' hm'
        exact ⟨[], by simp [hx], .inr ⟨ht'.symm, rfl⟩, hacc⟩
      | cons b bs =>
        obtain ⟨hb, hne, -⟩ := hm
        simp [masterAct_sendString_cons ht hb hne] at ha
    · simp [masterAct_nil ht] at ha
  | command w i ha hd hx hm' hacc =>
    rcases hs with ⟨a, ht, hm⟩ | ⟨ht, rfl⟩
    · cases bs with
      | nil => simp [masterAct_sendString_nil ht hm] at ha
      | cons b bs =>
        obtain ⟨hb, hne, hbs⟩ := hm
        rw [masterAct_sendString_cons ht hb hne] at ha
        injection ha with hw ht'
        obtain rfl : .txSendByte b = i := by simpa [← hw] using hd
        refine ⟨bs, by simp [State.accepts, hx], .inl ⟨a + 1, ht'.symm, by rwa [hm']⟩, hacc⟩
    · simp [masterAct_nil ht] at ha

/-- On the way of a TX.SENDSTRING without a reset: wire, byte in flight and what is left of the string make up `total`. -/
structure State.SendingString (total : List Byte) (acc : Byte) (s : State) : Prop where
  noReset : s.NoReset
  acc_eq : s.acc = acc
  progress : ∃ bs, s.StringLeft bs ∧ s.wire ++ s.inFlight ++ bs = total

theorem sendingString_step {total : List Byte} {acc : Byte} (s t : State) (hs : s.SendingString total acc)
    (h : step s = .next t) : t.SendingString total acc := by
  obtain ⟨hr, hacc, bs, hleft, htotal⟩ := hs
  have hn := nextTurn_ne_reset hr
  obtain ⟨bs', rfl, hleft', hacc'⟩ := stringLeft_of_step h hn hleft
  refine ⟨noReset_of_step h hr, hacc'.trans hacc, bs', hleft', ?_⟩
  rw [step_wire_inFlight h hn, List.append_assoc _ s.accepts, htotal]

/-- Settles O45: every step keeps wire, byte in flight and what is left of the string together, and at the end only the
wire is left. -/
theorem sendStringStopsAtTheNull : Obligations.SendStringStopsAtTheNull := by
  intro s a bs n t hp ht hne hr hz hnr hrun ⟨htodo, hidle⟩
  have start : s.SendingString (s.wire ++ bs) s.acc :=
    ⟨hnr, rfl, bs, .inl ⟨a, ht, Memory.holdsString_of_reads hne hr hz⟩, by simp [inFlight_of_ne_wait, hp]⟩
  obtain ⟨-, hacc, bs', hleft, htotal⟩ := reaches_keeps sendingString_step start hrun
  have sent : bs' = [] := by simpa [State.StringLeft, htodo] using hleft
  refine ⟨?_, hacc⟩
  simpa [sent, inFlight_of_ne_wait, hidle] using htotal

end Sys2Proof.Machine

/-! PROOFS, 41_checksum.md: `fold` bit by bit (R61) and as eight steps of a feedback register (R68). A step is linear and
injective, and from this come linearity (R66), the bijection (R67) and the laws of streams (R70, R71). Then the commands of
CE (R62 to R64) and a stream through the engine (R60, R72). -/

namespace Sys2Proof.Machine

/-! ### `fold`, bit by bit (R61) -/

theorem foldTerm_getLsbD (v : Byte) (i : Fin 8) (j : Nat) :
    (foldTerm v i).getLsbD j = (v.getLsbD i && (foldConst i).getLsbD j) := by
  unfold foldTerm
  cases v.getLsbD i <;> simp

theorem fold_getLsbD (v : Byte) (j : Nat) : (fold v).getLsbD j =
    (v.getLsbD 0 && (foldConst 0).getLsbD j ^^ v.getLsbD 1 && (foldConst 1).getLsbD j ^^
     v.getLsbD 2 && (foldConst 2).getLsbD j ^^ v.getLsbD 3 && (foldConst 3).getLsbD j ^^
     v.getLsbD 4 && (foldConst 4).getLsbD j ^^ v.getLsbD 5 && (foldConst 5).getLsbD j ^^
     v.getLsbD 6 && (foldConst 6).getLsbD j ^^ v.getLsbD 7 && (foldConst 7).getLsbD j) := by
  simp only [fold, BitVec.getLsbD_xor, foldTerm_getLsbD]
  rfl

/-- Settles O9: bit `j` of `fold v` is the XOR of those bits of `v` whose constant has bit `j` set. -/
theorem foldIsTheXorNetwork : Obligations.FoldIsTheXorNetwork := by
  refine ⟨by decide, fun v => ⟨rfl, ?_, ?_, ?_, ?_, ?_, ?_, ?_, ?_⟩⟩
  all_goals rw [fold_getLsbD]; simp [foldConst]

/-! ### Maps of bytes that are linear over XOR -/

/-- `f` takes an XOR to the XOR of its values (R66). -/
def XorLinear (f : Byte → Byte) : Prop := ∀ a b, f (a ^^^ b) = f a ^^^ f b

theorem XorLinear.map_zero {f : Byte → Byte} (hf : XorLinear f) : f 0 = 0 :=
  calc f 0
    _ = f (0 ^^^ 0) := rfl
    _ = f 0 ^^^ f 0 := hf 0 0
    _ = 0 := BitVec.xor_self

theorem XorLinear.iterate {f : Byte → Byte} (hf : XorLinear f) (n : Nat) : XorLinear f^[n] := by
  induction n with
  | zero => exact fun _ _ => rfl
  | succ n ih => exact fun a b => by simp only [Function.iterate_succ_apply, hf a b, ih (f a) (f b)]

/-- Bit `i` of a byte, in its place. -/
def bitOf (v : Byte) (i : Fin 8) : Byte := if v.getLsbD i then BitVec.twoPow 8 i else 0

theorem bitOf_getLsbD (v : Byte) (i : Fin 8) (j : Nat) :
    (bitOf v i).getLsbD j = (v.getLsbD i && decide (i.val = j)) := by
  unfold bitOf
  cases v.getLsbD i <;> simp [BitVec.getLsbD_twoPow]

/-- A byte is the XOR of its bits. -/
theorem xor_bitOf (v : Byte) : bitOf v 0 ^^^ bitOf v 1 ^^^ bitOf v 2 ^^^ bitOf v 3 ^^^ bitOf v 4 ^^^ bitOf v 5 ^^^
    bitOf v 6 ^^^ bitOf v 7 = v := by
  refine BitVec.eq_of_getLsbD_eq fun j hj => ?_
  simp only [BitVec.getLsbD_xor, bitOf_getLsbD]
  interval_cases j <;> simp

/-- A linear map is fixed by the single-bit values: one that takes them to the constants of R12 is `fold` (R61). -/
theorem XorLinear.eq_fold {f : Byte → Byte} (hf : XorLinear f) (h : ∀ i : Fin 8, f (BitVec.twoPow 8 i) = foldConst i)
    (v : Byte) : f v = fold v := by
  have term (i : Fin 8) : f (bitOf v i) = foldTerm v i := by
    unfold bitOf foldTerm
    split
    · exact h i
    · exact hf.map_zero
  rw [fold, ← congrArg f (xor_bitOf v)]
  simp only [hf _ (bitOf v _), term]

/-! ### The feedback register (R68) -/

theorem xorLinear_serialStep : XorLinear serialStep := by
  intro a b
  unfold serialStep
  have feedback (x y : Bool) :
      (if x ^^ y then 0x8c else 0 : Byte) = (if x then 0x8c else 0) ^^^ (if y then 0x8c else 0) := by
    revert x y; decide
  rw [BitVec.ushiftRight_xor_distrib, BitVec.getLsbD_xor, feedback]
  ac_rfl

/-- The bit shifted out comes back as bit 7 of the feedback. -/
theorem serialStep_getLsbD_seven (c : Byte) : (serialStep c).getLsbD 7 = c.getLsbD 0 := by
  unfold serialStep
  split <;> simp_all

theorem serialStep_injective : Function.Injective serialStep := by
  intro a b h
  have low : a.getLsbD 0 = b.getLsbD 0 := by rw [← serialStep_getLsbD_seven, h, serialStep_getLsbD_seven]
  have high : a >>> 1 = b >>> 1 := by
    rw [serialStep, serialStep, low] at h
    exact (BitVec.xor_left_inj _).1 h
  refine BitVec.eq_of_getLsbD_eq fun i _ => ?_
  cases i with
  | zero => exact low
  | succ i => simpa [Nat.add_comm 1] using congrArg (·.getLsbD i) high

theorem serialStep_eight_twoPow (i : Fin 8) : serialStep^[8] (BitVec.twoPow 8 i) = foldConst i := by
  revert i; decide

theorem fold_eq_serialStep (v : Byte) : fold v = serialStep^[8] v :=
  ((xorLinear_serialStep.iterate 8).eq_fold serialStep_eight_twoPow v).symm

theorem updated_eq_serialStep (acc b : Byte) : updated acc b = serialStep^[8] (acc ^^^ b) := fold_eq_serialStep _

/-- Settles O12: each constant is one step from the next, and eight steps are linear and take the single bits to the
constants. -/
theorem foldIsEightSerialSteps : Obligations.FoldIsEightSerialSteps :=
  ⟨rfl, rfl, rfl, rfl, rfl, rfl, rfl, rfl, fold_eq_serialStep, updated_eq_serialStep⟩

/-! ### The laws of `fold` and of an update (R66, R67) -/

theorem fold_eq_iterate : fold = serialStep^[8] := funext fold_eq_serialStep

theorem xorLinear_fold : XorLinear fold := fold_eq_iterate ▸ xorLinear_serialStep.iterate 8

theorem fold_bijective : Function.Bijective fold :=
  Finite.injective_iff_bijective.1 (fold_eq_iterate ▸ serialStep_injective.iterate 8)

theorem fold_eq_zero_iff (v : Byte) : fold v = 0 ↔ v = 0 := by
  rw [← fold_bijective.injective.eq_iff (a := v), xorLinear_fold.map_zero]

/-- The inverse of a linear bijection is linear. -/
theorem XorLinear.leftInverse {f g : Byte → Byte} (hf : XorLinear f) (hs : Function.Surjective f)
    (hg : Function.LeftInverse g f) : XorLinear g := by
  intro x y
  obtain ⟨a, rfl⟩ := hs x
  obtain ⟨b, rfl⟩ := hs y
  rw [← hf a b, hg, hg, hg]

theorem updated_byte_bijective (acc : Byte) : Function.Bijective (updated acc) :=
  Finite.injective_iff_bijective.1 fun _ _ h => (BitVec.xor_right_inj _).1 (fold_bijective.injective h)

theorem updated_acc_bijective (b : Byte) : Function.Bijective (updated · b) :=
  Finite.injective_iff_bijective.1 fun _ _ h => (BitVec.xor_left_inj _).1 (fold_bijective.injective h)

/-! ### The laws of streams (R66, R67, R70, R71) -/

theorem foldl_updated_xor (xs ys : List Byte) (h : xs.length = ys.length) (a b : Byte) :
    (List.zipWith (· ^^^ ·) xs ys).foldl updated (a ^^^ b) = xs.foldl updated a ^^^ ys.foldl updated b := by
  induction xs generalizing ys a b with
  | nil =>
    obtain rfl := List.length_eq_zero_iff.1 h.symm
    rfl
  | cons x xs ih =>
    cases ys with
    | nil => cases h
    | cons y ys =>
      have swap : a ^^^ b ^^^ (x ^^^ y) = a ^^^ x ^^^ (b ^^^ y) := by ac_rfl
      have head : updated (a ^^^ b) (x ^^^ y) = updated a x ^^^ updated b y := by
        rw [updated, swap, xorLinear_fold]; rfl
      simpa only [List.zipWith_cons_cons, List.foldl_cons, head] using ih ys (Nat.succ.inj h) (updated a x) (updated b y)

/-- Different accumulators stay different under equal bytes. -/
theorem foldl_updated_injective (bs : List Byte) : Function.Injective (bs.foldl updated) := by
  induction bs with
  | nil => exact Function.injective_id
  | cons b bs ih => exact ih.comp (updated_acc_bijective b).injective

theorem checksum_append (xs ys : List Byte) : checksum (xs ++ ys) = ys.foldl updated (checksum xs) := List.foldl_append

theorem checksum_replace_ne (xs ys : List Byte) {a b : Byte} (hne : a ≠ b) :
    checksum (xs ++ a :: ys) ≠ checksum (xs ++ b :: ys) := by
  rw [checksum_append, checksum_append]
  exact (foldl_updated_injective ys).ne ((updated_byte_bijective _).injective.ne hne)

theorem checksum_append_eq_zero_iff (bs : List Byte) (c : Byte) : checksum (bs ++ [c]) = 0 ↔ c = checksum bs := by
  rw [checksum_append_singleton, updated, fold_eq_zero_iff]
  exact BitVec.xor_eq_zero_iff.trans eq_comm

theorem checksum_replicate_zero (n : Nat) : checksum (List.replicate n 0) = 0 := by
  induction n with
  | zero => rfl
  | succ n ih => rw [List.replicate_succ', checksum_append_singleton, ih, updated_self]

theorem checksum_replicate_zero_append (n : Nat) (bs : List Byte) :
    checksum (List.replicate n 0 ++ bs) = checksum bs := by
  rw [checksum_append, checksum_replicate_zero, checksum]

/-- Settles O10: eight steps of a linear register are linear, and a stream folds byte by byte. -/
theorem foldIsLinearOverXor : Obligations.FoldIsLinearOverXor :=
  ⟨xorLinear_fold.map_zero, xorLinear_fold, xorLinear_fold, fun xs ys h => foldl_updated_xor xs ys h 0 0⟩

/-- Settles O11: each serial step is injective, so `fold` is, and injectivity on the 256 bytes is a bijection. -/
theorem foldIsABijection : Obligations.FoldIsABijection := by
  refine ⟨fold_bijective, fold_eq_zero_iff, fun g hg => xorLinear_fold.leftInverse fold_bijective.surjective hg, ?_,
    updated_acc_bijective, updated_byte_bijective, fun xs ys _ _ => checksum_replace_ne xs ys, ?_, ?_⟩
  all_goals decide +kernel

/-- Settles O13: `fold` is zero at zero alone, and an XOR is zero for equal bytes alone. -/
theorem ownChecksumGivesZero : Obligations.OwnChecksumGivesZero := ⟨updated_self, checksum_append_eq_zero_iff⟩

/-- Settles O14: the accumulator stays zero under zero bytes. -/
theorem leadingZerosLeaveNoTrace : Obligations.LeadingZerosLeaveNoTrace := fun n =>
  ⟨checksum_replicate_zero n, checksum_replicate_zero_append n⟩

/-- Settles O15: nine fixed streams, evaluated. -/
theorem checksumVectors : Obligations.ChecksumVectors := by
  unfold Obligations.ChecksumVectors
  decide +kernel

/-! ### The three commands (R62, R63, R64) -/

theorem effect_csumReset (s : State) : effect .csumReset s =
    { s with acc := 0, accWritten := true, done := true, rsp := none, pos := s.pos + 1 } := by
  simp [effect, complete, zeroAcc]

/-- Settles O16: the effect at a ready port, which a second one finds ready again. -/
theorem csumResetZeroesAcc : Obligations.CsumResetZeroesAcc := by
  refine ⟨decode_encode .csumReset, fun s hp => ?_, fun s t u hp ht hu => ?_⟩
  · rw [exec_idle hp, effect_csumReset]
  · obtain rfl : effect .csumReset s = t := by simpa [exec_idle hp] using ht
    have ready : (effect .csumReset s).phase = .idle := hp
    obtain rfl : effect .csumReset (effect .csumReset s) = u := by simpa [exec_idle ready] using hu
    exact ⟨rfl, rfl⟩

/-- Settles O17: the effect at a ready port, with the update in its bit-serial form. -/
theorem csumUpdateFoldsByte : Obligations.CsumUpdateFoldsByte := by
  intro s b hp
  rw [exec_idle hp, ← updated_eq_serialStep]
  rfl

/-- Settles O18: the effect at a ready port. -/
theorem csumValueReadsAcc : Obligations.CsumValueReadsAcc := fun _ hp => exec_idle hp .csumValue

/-! ### A stream through the engine (R60, R72) -/

/-- Under the empty schedule the master presents the first command of its program in the very next step (log 8). -/
theorem step_present {s : State} {i : Instr} {todo : List MasterOp} (hp : s.phase = .idle) (hs : s.turns = [])
    (ht : s.todo = .present (encode i) :: todo) : step s = .next (effect i (setTodo todo (strobesLow s.dropTurn))) := by
  have turn : s.nextTurn = .master [] := by simp [State.nextTurn, hs, defaultTurn, hp, ht]
  have act : s.masterAct = .present (encode i) todo := by simp [State.masterAct, ht, actOf]
  have ready : (setTodo todo (strobesLow s.dropTurn)).phase = .idle := hp
  rw [stepRunsPresentedCommand.1 s _ todo i turn hp act (decode_encode i), exec_idle ready]

/-- `t` is `s` after the stream `bs` and CSUM.VALUE: what is left of the program is `rest`, the responses are the running
values and then the last of them, and the wire and the memory are as before. -/
structure AfterStream (bs : List Byte) (rest : List MasterOp) (s t : State) : Prop where
  acc : t.acc = bs.foldl updated s.acc
  accWritten : t.accWritten = s.accWritten
  rsp : t.rsp = some (bs.foldl updated s.acc)
  responses : t.responses = s.responses ++ (bs.scanl updated s.acc).tail ++ [bs.foldl updated s.acc]
  pos : t.pos = s.pos + (bs.length + 1)
  wire : t.wire = s.wire
  phase : t.phase = .idle
  todo : t.todo = rest
  mem : t.mem = s.mem

theorem tail_scanl_updated (b : Byte) (bs : List Byte) (acc : Byte) : ((b :: bs).scanl updated acc).tail =
    updated acc b :: (bs.scanl updated (updated acc b)).tail := by
  cases bs <;> simp

/-- From every state with the port ready and the schedule empty, by induction on the stream. -/
theorem reaches_afterStream (bs : List Byte) {rest : List MasterOp} {s : State} (hp : s.phase = .idle) (hs : s.turns = [])
    (ht : s.todo = bs.map (fun b => .present (encode (.csumUpdate b))) ++ .present (encode .csumValue) :: rest) :
    ∃ t, Reaches (bs.length + 1) s t ∧ AfterStream bs rest s t := by
  induction bs generalizing s with
  | nil =>
    refine ⟨_, reaches_succ.2 ⟨_, step_present hp hs ht, reaches_zero.2 rfl⟩, ?_⟩
    constructor <;> simp [effect, hp]
  | cons b bs ih =>
    obtain ⟨t, hrun, h⟩ := ih (s := effect (.csumUpdate b) (setTodo _ (strobesLow s.dropTurn))) hp (by simp [hs]) rfl
    refine ⟨t, reaches_succ.2 ⟨_, step_present hp hs ht, hrun⟩, ?_⟩
    exact {
      acc := h.acc
      accWritten := h.accWritten
      rsp := h.rsp
      responses := by rw [h.responses, tail_scanl_updated]; simp [effect]
      pos := by rw [h.pos]; simp [effect]; omega
      wire := h.wire
      phase := h.phase
      todo := h.todo
      mem := h.mem }

/-- Settles O19: CSUM.RESET zeroes the accumulator whatever it held, and the stream runs from there. -/
theorem streamThroughEngineGivesChecksum : Obligations.StreamThroughEngineGivesChecksum := by
  intro bs rest s hp hs ht
  obtain ⟨t, hrun, h⟩ :=
    reaches_afterStream bs (s := effect .csumReset (setTodo _ (strobesLow s.dropTurn))) hp (by simp [hs]) rfl
  refine ⟨t, reaches_succ.2 ⟨_, step_present hp hs ht, hrun⟩, h.acc, h.accWritten, h.rsp, ?_, ?_, h.wire, h.phase,
    h.todo, h.mem⟩
  · rw [h.responses]; simp [effect, checksum]
  · rw [h.pos]; simp [effect]; omega

end Sys2Proof.Machine

/-! PROOFS, 42_serial_transport.md: the gate's block steps (R83, R84, R96), a movement that no sample covers (R86, R87), a
send in progress step by step (R81, R82, R97), and every step as a row of the transition table (R96). -/

namespace Sys2Proof.Machine

/-! ### A movement inside a step that takes no sample is an `FcDrive` before the step (R86, R87) -/

theorem levelsMoved_eq_fcDrive (vs : List Bool) (s : State) :
    levelsMoved vs s.fcUnsettled (levelsMove vs s) = fcDrive (vs.getLastD s.fcNrdy) s := levelsMoved_levelsMove vs s

/-- In IDLE and GUARD the block takes no sample. -/
theorem blockStep_moved {s : State} (h : s.phase ≠ .wait) (vs : List Bool) :
    levelsMoved vs s.fcUnsettled (blockStep (levelsMove vs s)) = blockStep (fcDrive (vs.getLastD s.fcNrdy) s) := by
  cases hp : s.phase with
  | wait => exact absurd hp h
  | idle =>
    have before : (levelsMove vs s).phase = .idle := hp
    have after : (fcDrive (vs.getLastD s.fcNrdy) s).phase = .idle := hp
    rw [blockStep_idle before, blockStep_idle after, levelsMoved_eq_fcDrive]
  | guard =>
    have before : (levelsMove vs s).phase = .guard := hp
    have after : (fcDrive (vs.getLastD s.fcNrdy) s).phase = .guard := hp
    rw [blockStep_guard before, blockStep_guard after, ← levelsMoved_eq_fcDrive]
    rfl

/-- FC.STATUS is the one command that takes a sample. -/
theorem effect_moved {i : Instr} (h : i ≠ .fcStatus) (todo : List MasterOp) (vs : List Bool) (s : State) :
    levelsMoved vs s.fcUnsettled (effect i (setTodo todo (levelsMove vs s))) =
      effect i (setTodo todo (fcDrive (vs.getLastD s.fcNrdy) s)) := by
  rw [← levelsMoved_eq_fcDrive]
  cases i with
  | fcStatus => exact absurd rfl h
  | csumReset | csumUpdate b | csumValue | txSendByte b => rfl

@[simp] theorem masterAct_fcDrive (v : Bool) (s : State) : (fcDrive v s).masterAct = s.masterAct := rfl

/-- The master's turn takes no sample but for FC.STATUS. -/
theorem masterTurn_moved {s : State}
    (h : ∀ w todo, s.phase = .idle → s.masterAct = .present w todo → decode w ≠ .ok .fcStatus) (vs : List Bool) :
    onNext (levelsMoved vs s.fcUnsettled) (masterTurn (levelsMove vs s)) =
      masterTurn (fcDrive (vs.getLastD s.fcNrdy) s) := by
  by_cases hp : s.phase = .idle
  · have before : (levelsMove vs s).phase = .idle := hp
    have after : (fcDrive (vs.getLastD s.fcNrdy) s).phase = .idle := hp
    cases ha : s.masterAct with
    | rest => simp [masterTurn, cmdReady_iff, hp, ha, onNext, levelsMoved_eq_fcDrive]
    | stop r => simp [masterTurn, cmdReady_iff, hp, ha, onNext]
    | own todo m =>
      rw [masterTurn_own before ha, masterTurn_own after ha, onNext, ← levelsMoved_eq_fcDrive]
      rfl
    | present w todo =>
      cases hd : decode w with
      | error why => simp [masterTurn, cmdReady_iff, hp, ha, presentWord, hd, onNext]
      | ok i =>
        have unsampled : i ≠ .fcStatus := by rintro rfl; exact h w todo hp ha hd
        rw [masterTurn_present before ha hd, masterTurn_present after ha hd, exec_idle (by exact before),
          exec_idle (by exact after), onNext, effect_moved unsampled]
  · have before : (levelsMove vs s).phase ≠ .idle := hp
    have after : (fcDrive (vs.getLastD s.fcNrdy) s).phase ≠ .idle := hp
    rw [masterTurn_busy before, masterTurn_busy after, onNext, levelsMoved_eq_fcDrive]

theorem step_block_unsampled {s : State} {vs : List Bool} (hn : s.nextTurn = .block vs) (hp : s.phase ≠ .wait) :
    step s = .next (blockStep (fcDrive (vs.getLastD s.fcNrdy) (strobesLow s.dropTurn))) := by
  rw [step_block hn]
  exact congrArg _ (blockStep_moved (s := strobesLow s.dropTurn) hp vs)

theorem step_master_unsampled {s : State} {vs : List Bool} (hn : s.nextTurn = .master vs)
    (hx : s.executes ≠ some .fcStatus) :
    step s = masterTurn (fcDrive (vs.getLastD s.fcNrdy) (strobesLow s.dropTurn)) := by
  rw [step_master hn]
  refine masterTurn_moved (s := strobesLow s.dropTurn) (fun w todo hp ha hd => hx ?_) vs
  exact executes_of_decode_ok (presented_eq_some.2 ⟨⟨vs, hn⟩, hp, todo, ha⟩) hd

theorem executes_congr {s t : State} (hn : s.nextTurn.isMaster = t.nextTurn.isMaster) (hp : s.phase = t.phase)
    (ha : s.masterAct = t.masterAct) : s.executes = t.executes := by
  simp only [State.executes, State.presented, hn, hp, ha]

/-! ### The environment's steps -/

theorem step_fcDrive {s : State} {v : Bool} (h : s.nextTurn = .fcDrive v) :
    step s = .next (fcDrive v (strobesLow s.dropTurn)) := by
  simp [step, takeTurn, h]

theorem step_uartDrain {s : State} (h : s.nextTurn = .uartDrain) :
    step s = .next (uartDrain (strobesLow s.dropTurn)) := by
  simp [step, takeTurn, h]

theorem step_guardTick {s : State} (h : s.nextTurn = .guardTick) :
    step s = .next (guardTick (strobesLow s.dropTurn)) := by
  simp [step, takeTurn, h]

/-- Settles O33: the second change of the level undoes the first, and a movement inside a step without a sample is one
change of the level, here to what it is. -/
theorem pulseBetweenSamplesLeavesNoTrace : Obligations.PulseBetweenSamplesLeavesNoTrace := by
  refine ⟨fun s v ts ht => ?_, fun s vs ts ht hp hv => ?_, fun s vs ts ht hx hv => ?_⟩
  · have first : s.nextTurn = .fcDrive v := by simp [State.nextTurn, ht]
    have second : (fcDrive v (strobesLow s.dropTurn)).nextTurn = .fcDrive s.fcNrdy := by simp [State.nextTurn, ht]
    refine reaches_succ.2 ⟨_, step_fcDrive first, reaches_succ.2 ⟨_, step_fcDrive second, reaches_zero.2 ?_⟩⟩
    simp [fcDrive, strobesLow, State.dropTurn, ht]
  · have turn : s.nextTurn = .block vs := by simp [State.nextTurn, ht]
    have drop : s.dropTurn = State.dropTurn { s with turns := .block [] :: ts } := by simp [State.dropTurn, ht]
    calc step s
      _ = .next (blockStep (fcDrive s.fcNrdy (strobesLow s.dropTurn))) := by rw [step_block_unsampled turn hp, hv]
      _ = step { s with turns := .block [] :: ts } := by
        rw [drop]; exact (step_block_unsampled (s := { s with turns := .block [] :: ts }) rfl hp).symm
  · have turn : s.nextTurn = .master vs := by simp [State.nextTurn, ht]
    have drop : s.dropTurn = State.dropTurn { s with turns := .master [] :: ts } := by simp [State.dropTurn, ht]
    have same : State.executes { s with turns := .master [] :: ts } = s.executes :=
      executes_congr (by rw [turn]; rfl) rfl rfl
    calc step s
      _ = masterTurn (fcDrive s.fcNrdy (strobesLow s.dropTurn)) := by rw [step_master_unsampled turn hx, hv]
      _ = step { s with turns := .master [] :: ts } := by
        rw [drop]; exact (step_master_unsampled (s := { s with turns := .master [] :: ts }) rfl (same ▸ hx)).symm

/-! ### The two commands -/

/-- Settles O23: the effect at a ready port. -/
theorem sendByteIsAccepted : Obligations.SendByteIsAccepted := fun _ b hp => ⟨exec_idle hp (.txSendByte b), rfl⟩

/-- Settles O31: the word is the command's encoding, and the effect at a ready port is one sample and the response. -/
theorem fcStatusReadsTheTwoLevels : Obligations.FcStatusReadsTheTwoLevels :=
  ⟨decode_encode .fcStatus, fun _ hp => exec_idle hp .fcStatus, fun _ hp => exec_busy hp .fcStatus, rfl, rfl, rfl, rfl⟩

/-! ### The block's steps in WAIT and GUARD (R83, R84, R96) -/

theorem gateOpen_eq_false_iff (s : State) : s.gateOpen = false ↔ s.sampleFc = true ∨ s.txEmpty = false := by
  simp [State.gateOpen, ← Bool.not_eq_true, imp_iff_not_or]

/-- Settles O25: the block's step with the gate open and with the gate shut, between the two ends of the movement. -/
theorem waitStepWritesExactlyWhenOpen : Obligations.WaitStepWritesExactlyWhenOpen := by
  intro s vs hn hp
  have waits : (levelsMove vs (strobesLow s.dropTurn)).phase = .wait := hp
  refine ⟨fun hs he => ?_, fun hshut => ?_⟩
  · have isOpen := (gateOpen_iff (levelsMove vs (strobesLow s.dropTurn))).2 ⟨(sampleFc_block hn).trans hs, he⟩
    rw [step_block hn, blockStep_open waits isOpen]
    simp [levelsMoved, writePending, uartWrite, afterSample, levelsMove, strobesLow, State.dropTurn]
  · rw [← sampleFc_block hn] at hshut
    rw [step_block hn, blockStep_shut waits ((gateOpen_eq_false_iff _).2 hshut)]
    simp [levelsMoved, afterSample, levelsMove, strobesLow, State.dropTurn]

/-- Settles O26: in GUARD the block takes no sample, and its step ends the command. -/
theorem guardStepCompletesTheSend : Obligations.GuardStepCompletesTheSend := by
  intro s vs hn hp
  rw [step_block_unsampled hn (by simp [hp]), blockStep_guard (by exact hp)]
  simp [guardStep, complete, fcDrive, strobesLow, State.dropTurn]


theorem seenFc_of_still {s : State} (hu : s.fcUnsettled = false) (hd : s.nextTurn.drives = []) : s.seenFc = s.fcNrdy :=
  sampleIsTheLevelUnlessItChanges.2.2.1 s hu (by simp [hd])

/-- Settles O24: accepted, written through the open gate, and the guard delay over, one lemma for each of the three steps. -/
theorem sendByteRunsToDone : Obligations.SendByteRunsToDone := by
  intro s ts w todo b hp ht ha hd hu hf he
  have turn : s.nextTurn = .master [] := by simp [State.nextTurn, ht]
  have accepted : step s = .next (acceptSend b (setTodo todo (strobesLow s.dropTurn))) := by
    rw [stepRunsPresentedCommand.1 s w todo _ turn hp ha hd, exec_idle (by exact hp)]
    rfl
  have blocks : (acceptSend b (setTodo todo (strobesLow s.dropTurn))).nextTurn = .block [] := by simp [State.nextTurn, ht]
  have ready : (acceptSend b (setTodo todo (strobesLow s.dropTurn))).seenFc = false :=
    (seenFc_of_still (s := acceptSend b (setTodo todo (strobesLow s.dropTurn))) hu (by rw [blocks]; rfl)).trans hf
  have written := (waitStepWritesExactlyWhenOpen _ [] blocks rfl).1 ready he
  refine reaches_succ.2 ⟨_, accepted, reaches_succ.2 ⟨_, written, reaches_succ.2
    ⟨_, guardStepCompletesTheSend _ [] (by simp [State.nextTurn, ht]) rfl, reaches_zero.2 ?_⟩⟩⟩
  simp [acceptSend, setTodo, strobesLow, State.dropTurn, ht, hu, hp]

/-! ### A send in progress, step by step (R81, R82, R96) -/

/-- What a send that stands where it stood leaves alone. -/
structure SendSide where
  phase : Phase
  pend : Byte
  wire : List Byte
  acc : Byte
  todo : List MasterOp
  responses : List Byte
  pos : Nat

def State.sendSide (s : State) : SendSide := ⟨s.phase, s.pend, s.wire, s.acc, s.todo, s.responses, s.pos⟩

@[simp] theorem sendSide_strobesLow (s : State) : (strobesLow s).sendSide = s.sendSide := rfl
@[simp] theorem sendSide_dropTurn (s : State) : s.dropTurn.sendSide = s.sendSide := rfl
@[simp] theorem sendSide_levelsMove (vs : List Bool) (s : State) : (levelsMove vs s).sendSide = s.sendSide := rfl
@[simp] theorem sendSide_levelsMoved (vs : List Bool) (u : Bool) (s : State) :
    (levelsMoved vs u s).sendSide = s.sendSide := rfl
@[simp] theorem sendSide_afterSample (s : State) : (afterSample s).sendSide = s.sendSide := rfl
@[simp] theorem sendSide_guardTick (s : State) : (guardTick s).sendSide = s.sendSide := rfl
@[simp] theorem sendSide_fcDrive (v : Bool) (s : State) : (fcDrive v s).sendSide = s.sendSide := rfl
@[simp] theorem sendSide_uartDrain (s : State) : (uartDrain s).sendSide = s.sendSide := rfl

/-- What a step without a reset makes of a send in progress: one constructor for each row of R96 in WAIT and GUARD, and one
for all turns in which the block has no action. -/
inductive SendStep (s : State) : State → Prop
  /-- another agent's turn, or the block's with the gate shut -/
  | stands (t : State) : (s.nextTurn.isBlock = true → s.phase = .wait ∧ (s.seenFc = true ∨ s.txEmpty = false)) →
      t.sendSide = s.sendSide → t.done = false → (s.txEmpty = true ∨ s.nextTurn = .uartDrain → t.txEmpty = true) →
      SendStep s t
  /-- the write -/
  | written (vs : List Bool) : s.nextTurn = .block vs → s.phase = .wait → s.seenFc = false → s.txEmpty = true →
      SendStep s (levelsMoved vs s.fcUnsettled (writePending (afterSample (levelsMove vs (strobesLow s.dropTurn)))))
  /-- the end of the guard delay -/
  | completed (vs : List Bool) : s.nextTurn = .block vs → s.phase = .guard →
      SendStep s (levelsMoved vs s.fcUnsettled (guardStep (levelsMove vs (strobesLow s.dropTurn))))

/-- While a send is in progress every step but a reset is one of these, and none faults or is refused. -/
theorem exists_sendStep {s : State} (hp : s.phase ≠ .idle) (hr : s.nextTurn ≠ .reset) :
    ∃ t, step s = .next t ∧ SendStep s t := by
  cases hn : s.nextTurn with
  | reset => exact absurd hn hr
  | guardTick => exact ⟨_, step_guardTick hn, .stands _ (by simp [hn, Turn.isBlock]) (by simp) rfl (by simp [hn])⟩
  | fcDrive v => exact ⟨_, step_fcDrive hn, .stands _ (by simp [hn, Turn.isBlock]) (by simp) rfl (by simp [hn])⟩
  | uartDrain => exact ⟨_, step_uartDrain hn, .stands _ (by simp [hn, Turn.isBlock]) (by simp) rfl (by simp)⟩
  | master vs =>
    have rests := busyPortTakesNoCommand.2 s vs hp hn
    exact ⟨_, rests, .stands _ (by simp [hn, Turn.isBlock]) rfl rfl (by simp [hn])⟩
  | block vs =>
    rw [step_block hn]
    rcases blockStep_cases (levelsMove vs (strobesLow s.dropTurn)) with ⟨hi, -⟩ | ⟨hw, hg, e⟩ | ⟨hw, hg, e⟩ | ⟨hg, e⟩
    · exact absurd hi hp
    · obtain ⟨hs, he⟩ := (gateOpen_iff _).1 hg
      rw [sampleFc_block hn] at hs
      rw [e]
      exact ⟨_, rfl, .written vs hn hw hs he⟩
    · have shut := (gateOpen_eq_false_iff _).1 hg
      rw [sampleFc_block hn] at shut
      rw [e]
      exact ⟨_, rfl, .stands _ (fun _ => ⟨hw, shut⟩) (by simp) (by simp) (by simp [hn])⟩
    · rw [e]
      exact ⟨_, rfl, .completed vs hn hg⟩

theorem sendStep_of_step {s t : State} (hp : s.phase ≠ .idle) (hr : s.nextTurn ≠ .reset) (h : step s = .next t) :
    SendStep s t := by
  obtain ⟨u, hu, hs⟩ := exists_sendStep hp hr
  obtain rfl : u = t := by simpa [hu] using h
  exact hs

/-- Settles O29, by what the step makes of the send. -/
theorem waitEndsExactlyAtAReadySample : Obligations.WaitEndsExactlyAtAReadySample := by
  intro s t hp hr h
  cases sendStep_of_step (by simp [hp]) hr h with
  | stands t hb hk _ he =>
    have waits : t.phase = .wait := (congrArg SendSide.phase hk).trans hp
    refine ⟨⟨fun hne => absurd waits hne, fun ⟨hx, hs, he'⟩ => ?_⟩, fun _ hs => he (.inl hs)⟩
    rcases (hb hx).2 with h1 | h1 <;> simp [hs, he'] at h1
  | written vs hn _ hs he => simp [hn, hs, he, Turn.isBlock]
  | completed vs _ hg => simp [hp] at hg

/-! ### A level that the far end holds (R18) -/

/-- The far end holds its level at `v`: the level is there and settled, and no turn of the schedule moves it away or is a
reset. -/
structure State.HeldAt (v : Bool) (s : State) : Prop where
  level : s.fcNrdy = v
  settled : s.fcUnsettled = false
  turns : ∀ u ∈ s.turns, u ≠ .reset ∧ (!v) ∉ u.drives

theorem defaultTurn_drives (s : State) : (defaultTurn s).drives = [] := by
  unfold defaultTurn
  cases s.phase with
  | idle => simp only; split <;> rfl
  | wait => simp only; split <;> rfl
  | guard => rfl

theorem State.HeldAt.nextTurn {s : State} {v : Bool} (h : s.HeldAt v) : s.nextTurn ≠ .reset ∧ (!v) ∉ s.nextTurn.drives := by
  cases ht : s.turns with
  | nil => simp [State.nextTurn, ht, defaultTurn_ne_reset, defaultTurn_drives]
  | cons u ts => simpa [State.nextTurn, ht] using h.turns u (by simp [ht])

theorem State.HeldAt.drives {s : State} {v : Bool} (h : s.HeldAt v) : ∀ x ∈ s.nextTurn.drives, x = v := by
  intro x hx
  by_contra hne
  exact h.nextTurn.2 (Bool.eq_not_of_ne hne ▸ hx)

theorem State.HeldAt.seenFc {s : State} {v : Bool} (h : s.HeldAt v) : s.seenFc = v :=
  (sampleIsTheLevelUnlessItChanges.2.2.1 s h.settled (h.level.symm ▸ h.drives)).trans h.level

theorem State.HeldAt.step {s t : State} {v : Bool} (h : s.HeldAt v) (hstep : step s = .next t) : t.HeldAt v where
  level := by
    rw [(levelsChangeOnlyByTheirOwners s t hstep).1]
    rcases List.mem_cons.1 (List.getLastD_mem_cons (l := s.nextTurn.drives) (a := s.fcNrdy)) with e | hm
    · exact e.trans h.level
    · exact h.drives _ hm
  settled := Bool.eq_false_iff.2 fun ht => h.nextTurn.1 (sampleIsTheLevelUnlessItChanges.2.2.2 s t hstep h.settled ht)
  turns := fun u hu => h.turns u (List.mem_of_mem_tail (step_turns hstep ▸ hu))

/-! ### The far end not ready: the send stands (R82) -/

/-- A waiting send stands under a far end that holds its level at "not ready", after any number of steps. -/
theorem reaches_standing (k : Nat) {s : State} (hp : s.phase = .wait) (hs : s.HeldAt true) :
    ∃ t, Reaches k s t ∧ t.HeldAt true ∧ t.sendSide = s.sendSide ∧ (0 < k → t.done = false) := by
  induction k with
  | zero => exact ⟨s, reaches_zero.2 rfl, hs, rfl, by simp⟩
  | succ k ih =>
    obtain ⟨t, hrun, ht, hk, -⟩ := ih
    have waits : t.phase = .wait := (congrArg SendSide.phase hk).trans hp
    obtain ⟨u, hu, hsend⟩ := exists_sendStep (by simp [waits]) ht.nextTurn.1
    have run : Reaches (k + 1) s u := reaches_add hrun (reaches_succ.2 ⟨u, hu, reaches_zero.2 rfl⟩)
    cases hsend with
    | stands u _ hk' hd _ => exact ⟨u, run, ht.step hu, hk'.trans hk, fun _ => hd⟩
    | written vs _ _ hready _ => simp [ht.seenFc] at hready
    | completed vs _ hg => simp [waits] at hg

/-- Settles O28: the first two clauses by what a step makes of the send, the third by induction on the number of steps. -/
theorem sendByteHasNoTimeout : Obligations.SendByteHasNoTimeout := by
  have busy : ∀ t : State, t.phase = .wait → t.cmdReady = false := fun t ht =>
    (busyPortTakesNoCommand.1 .csumReset t (by simp [ht])).1
  refine ⟨fun s t hp h hb hshut => ?_, fun s t hp h hne => ?_, fun k s hp hf hu hts => ?_⟩
  · have noReset : s.nextTurn ≠ .reset := fun hn => by simp [hn, Turn.isBlock] at hb
    cases sendStep_of_step (by simp [hp]) noReset h with
    | stands t _ hk hd _ =>
      have waits : t.phase = .wait := (congrArg SendSide.phase hk).trans hp
      exact ⟨waits, busy t waits, hd, congrArg SendSide.wire hk⟩
    | written vs _ _ hs he => simp [hs, he] at hshut
    | completed vs _ hg => simp [hp] at hg
  · exact or_iff_not_imp_left.2 fun hr => (waitEndsExactlyAtAReadySample s t hp hr h).1.1 hne
  · obtain ⟨t, hrun, -, hk, hd⟩ := reaches_standing k hp ⟨hf, hu, hts⟩
    have waits : t.phase = .wait := (congrArg SendSide.phase hk).trans hp
    exact ⟨t, hrun, waits, busy t waits, hd, congrArg SendSide.pend hk, congrArg SendSide.wire hk,
      congrArg SendSide.acc hk, congrArg SendSide.todo hk, congrArg SendSide.responses hk, congrArg SendSide.pos hk⟩

/-! ### The far end ready: the send completes (R97) -/

/-- How many steps a send may still take where the far end stays ready: the schedule, and then at most the drain, the write
and the end of the guard delay. -/
def State.stepsLeft (s : State) : Nat :=
  s.turns.length + match s.phase with
    | .idle => 0
    | .guard => 1
    | .wait => if s.txEmpty then 2 else 3

theorem stepsLeft_wait {s : State} (h : s.phase = .wait) :
    s.stepsLeft = s.turns.length + if s.txEmpty then 2 else 3 := by simp [State.stepsLeft, h]

theorem stepsLeft_guard {s : State} (h : s.phase = .guard) : s.stepsLeft = s.turns.length + 1 := by
  simp [State.stepsLeft, h]

theorem stepsLeft_idle {s : State} (h : s.phase = .idle) : s.stepsLeft = s.turns.length := by
  simp [State.stepsLeft, h]

theorem nextTurn_default {s : State} (h : s.turns = []) : s.nextTurn = defaultTurn s := by simp [State.nextTurn, h]

/-- Every step takes one away at least: it uses up a turn of the schedule, or the default turn moves the send on. -/
theorem stepsLeft_lt {s t : State} (hp : s.phase ≠ .idle) (hs : s.HeldAt false) (h : step s = .next t)
    (hsend : SendStep s t) : t.stepsLeft < s.stepsLeft := by
  have used := congrArg List.length (step_turns h)
  rw [List.length_tail] at used
  cases hsend with
  | written vs _ hw _ he =>
    rw [stepsLeft_guard rfl, stepsLeft_wait hw, if_pos he]
    omega
  | completed vs _ hg =>
    rw [stepsLeft_idle rfl, stepsLeft_guard hg]
    omega
  | stands t hb hk _ he =>
    have hphase : t.phase = s.phase := congrArg SendSide.phase hk
    cases hph : s.phase with
    | idle => exact absurd hph hp
    | guard =>
      rw [stepsLeft_guard (hphase.trans hph), stepsLeft_guard hph]
      have listed : s.turns ≠ [] := fun hnil => by
        simp [nextTurn_default hnil, defaultTurn, hph, Turn.isBlock] at hb
      have := List.length_pos_iff.2 listed
      omega
    | wait =>
      rw [stepsLeft_wait (hphase.trans hph), stepsLeft_wait hph]
      cases hempty : s.txEmpty with
      | true =>
        have listed : s.turns ≠ [] := fun hnil => by
          simp [nextTurn_default hnil, defaultTurn, hph, hempty, hs.seenFc, Turn.isBlock] at hb
        have := List.length_pos_iff.2 listed
        rw [he (.inl hempty)]
        omega
      | false =>
        cases hturns : s.turns with
        | nil =>
          have drained := he (.inr (by simp [nextTurn_default hturns, defaultTurn, hph, hempty]))
          simp [step_turns h, hturns, drained]
        | cons u ts =>
          rw [step_turns h, hturns]
          split <;> simp

/-- `t` is `s` with its send over: the byte that was in flight is on the wire, and one more command is done. -/
structure SendOver (s t : State) : Prop where
  phase : t.phase = .idle
  done : t.done = true
  wire : t.wire = s.wire ++ s.inFlight
  acc : t.acc = s.acc
  todo : t.todo = s.todo
  pos : t.pos = s.pos + 1

/-- Under a far end that stays ready a send in progress is over within `stepsLeft` steps. -/
theorem reaches_sendOver {s : State} (hp : s.phase ≠ .idle) (hs : s.HeldAt false) :
    ∃ k t, k ≤ s.stepsLeft ∧ Reaches k s t ∧ SendOver s t := by
  induction hn : s.stepsLeft using Nat.strong_induction_on generalizing s with
  | _ n ih =>
    obtain ⟨t, ht, hsend⟩ := exists_sendStep hp hs.nextTurn.1
    have less : t.stepsLeft < n := hn ▸ stepsLeft_lt hp hs ht hsend
    have goesOn (htp : t.phase ≠ .idle) (hw : t.wire ++ t.inFlight = s.wire ++ s.inFlight) (hacc : t.acc = s.acc)
        (htodo : t.todo = s.todo) (hpos : t.pos = s.pos) : ∃ k u, k ≤ n ∧ Reaches k s u ∧ SendOver s u := by
      obtain ⟨k, u, hk, hrun, h⟩ := ih _ less htp (hs.step ht) rfl
      exact ⟨k + 1, u, by omega, reaches_succ.2 ⟨t, ht, hrun⟩,
        { phase := h.phase, done := h.done, wire := h.wire.trans hw, acc := h.acc.trans hacc,
          todo := h.todo.trans htodo, pos := by rw [h.pos, hpos] }⟩
    cases hsend with
    | stands t _ hk _ _ =>
      obtain ⟨hphase, hpend, hwire, hacc, htodo, -, hpos⟩ := SendSide.mk.inj hk
      exact goesOn (hphase ▸ hp) (by rw [hwire, inFlight_eq hphase hpend]) hacc htodo hpos
    | written vs _ hw _ _ => exact goesOn (by simp) (by simp [inFlight_of_wait hw]) (by simp) (by simp) (by simp)
    | completed vs _ hg =>
      exact ⟨1, _, by omega, reaches_succ.2 ⟨_, ht, reaches_zero.2 rfl⟩,
        by constructor <;> simp [inFlight_of_ne_wait, hg]⟩

/-- Settles O30: what is left to do for a waiting send is the schedule and three steps at most. -/
theorem readyFarEndLetsTheSendComplete : Obligations.ReadyFarEndLetsTheSendComplete := by
  intro s hp hf hu hts
  obtain ⟨k, t, hk, hrun, h⟩ := reaches_sendOver (by simp [hp]) ⟨hf, hu, hts⟩
  have bound : s.stepsLeft ≤ s.turns.length + 3 := by rw [stepsLeft_wait hp]; split <;> omega
  exact ⟨k, t, hk.trans bound, hrun, h.phase, h.done, inFlight_of_wait hp ▸ h.wire, h.acc, h.todo, h.pos⟩

/-! ### The record of R25 under the updates of a turn -/

@[simp] theorem view_guardTick (s : State) : (guardTick s).view = s.view := rfl
@[simp] theorem view_fcDrive (v : Bool) (s : State) : (fcDrive v s).view = { s.view with fcNrdy := v } := rfl
@[simp] theorem view_uartDrain (s : State) : (uartDrain s).view = { s.view with txEmpty := true } := rfl
@[simp] theorem view_restart (s : State) : (restart s).view =
    { acc := none, phase := .idle, pend := 0, txEmpty := Config.txEmptyAtReset (s.draws + 1), fcNrdy := s.view.fcNrdy,
      wire := [] } := rfl

/-- An update of the accumulator in the record: unwritten it stays unwritten (log 1). -/
theorem view_setAcc_updated (b : Byte) (s : State) :
    (setAcc (updated s.acc b) s).view = { s.view with acc := s.view.acc.map (updated · b) } := by
  cases h : s.accWritten <;> simp [State.view, h]

/-! ### The rows of the transition table (R22, R62 to R64, R90, R96) -/

/-- A command's row: the one with its name. -/
theorem wscfStep_effect (i : Instr) {s : State} (hp : s.phase = .idle) (vs : List Bool) (lvl : Bool) :
    WscfStep (.master vs) (some i) lvl s.view ((effect i s).view.moved vs) := by
  cases i with
  | csumReset => exact .csumReset vs lvl s.view hp
  | csumUpdate b => simpa [effect, view_setAcc_updated] using WscfStep.csumUpdate vs lvl s.view b hp
  | csumValue => exact .csumValue vs lvl s.view hp
  | txSendByte b => exact .sendByte vs lvl s.view b hp
  | fcStatus => exact .fcStatus vs lvl s.view hp

/-- The row of a block step: the one of its phase, and in WAIT of the level sampled. -/
theorem wscfStep_blockStep (s : State) (vs : List Bool) :
    WscfStep (.block vs) none s.sampleFc s.view ((blockStep s).view.moved vs) := by
  rcases blockStep_cases s with ⟨hp, e⟩ | ⟨hp, hg, e⟩ | ⟨hp, hg, e⟩ | ⟨hp, e⟩ <;> rw [e]
  · exact .idle vs _ s.view hp
  · obtain ⟨hs, he⟩ := (gateOpen_iff s).1 hg
    rw [hs]
    exact .write vs s.view hp he
  · exact .hold vs _ s.view hp ((gateOpen_eq_false_iff s).1 hg)
  · exact .guardOver vs _ s.view hp

/-- The row of `UartDrain`, enabled or not. -/
theorem wscfStep_uartDrain (lvl : Bool) (v : Wscf) : WscfStep .uartDrain none lvl v { v with txEmpty := true } := by
  cases he : v.txEmpty with
  | false => exact .uartDrain lvl v he
  | true =>
    have same : { v with txEmpty := true } = v := by rw [← he]
    rw [same]
    exact .noDrain lvl v he

/-! ### `done` and the response of a step (R23, R24, R50) -/

/-- A block step gives `done` at the end of the guard delay alone. -/
theorem blockStep_done {s : State} (h : s.done = false) : (blockStep s).done = decide (s.phase = .guard) := by
  rcases blockStep_cases s with ⟨hp, e⟩ | ⟨hp, -, e⟩ | ⟨hp, -, e⟩ | ⟨hp, e⟩ <;> simp [e, hp, h]

/-- A block step presents no response. -/
theorem blockStep_rsp {s : State} (h : s.rsp = none) : (blockStep s).rsp = none :=
  (blockStep_keeps State.rsp s rfl rfl h.symm).trans h

/-- A step that executes a command is the master's turn, and the command's effect between the two ends of the movement. -/
theorem step_command {s : State} {i : Instr} (h : s.executes = some i) :
    s.phase = .idle ∧ ∃ vs todo, s.nextTurn = .master vs ∧
      step s = .next (levelsMoved vs s.fcUnsettled (effect i (setTodo todo (levelsMove vs (strobesLow s.dropTurn))))) := by
  obtain ⟨w, hw, hd⟩ := executes_eq_some.1 h
  obtain ⟨⟨vs, hn⟩, hp, todo, ha⟩ := presented_eq_some.1 hw
  have ready : (setTodo todo (levelsMove vs (strobesLow s.dropTurn))).phase = .idle := hp
  refine ⟨hp, vs, todo, hn, ?_⟩
  rw [stepRunsPresentedCommand.2 s vs w todo i hn hp ha hd, exec_idle ready, onNext]

/-- Settles O48: a command's row, its `done` and its response are those of its effect; any other step is a row of the agent
whose turn it is, and of these only the block's step gives `done`. -/
theorem everyStepIsARowOfTheTransitionTable : Obligations.EveryStepIsARowOfTheTransitionTable := by
  intro s t h
  cases hx : s.executes with
  | some i =>
    obtain ⟨hp, vs, todo, hn, e⟩ := step_command hx
    obtain rfl : _ = t := Host.Outcome.next.inj (e.symm.trans h)
    refine ⟨?_, ?_, ?_⟩
    · rw [hn, view_levelsMoved]
      simpa using wscfStep_effect i (s := setTodo todo (levelsMove vs (strobesLow s.dropTurn))) hp vs s.seenFc
    · cases i <;> simp [State.completes, hx, effect]
    · have sample : (setTodo todo (levelsMove vs (strobesLow s.dropTurn))).sampleFc = s.seenFc := sampleFc_master hn
      cases i <;> simp [State.response, hx, effect, sample]
  | none =>
    have response : s.response = none := by simp [State.response, hx]
    have completes : s.completes = (s.nextTurn.isBlock && decide (s.phase = .guard)) := by simp [State.completes, hx]
    rw [response, completes]
    cases stepKind_of_step h with
    | command vs todo i _ _ hi => simp [hx] at hi
    | block vs hn =>
      rw [hn, ← sampleFc_block hn, view_levelsMoved]
      exact ⟨wscfStep_blockStep (levelsMove vs (strobesLow s.dropTurn)) vs, blockStep_done rfl, blockStep_rsp rfl⟩
    | reset hn => simpa [hn, Turn.isBlock] using WscfStep.reset s.seenFc s.view 0 (Config.txEmptyAtReset (s.draws + 1))
    | guardTick hn => simpa [hn, Turn.isBlock] using WscfStep.guardTick s.seenFc s.view
    | fcDrive v hn => simpa [hn, Turn.isBlock] using WscfStep.fcDrive s.seenFc v s.view
    | uartDrain hn => simpa [hn, Turn.isBlock] using wscfStep_uartDrain s.seenFc s.view
    | masterRests vs hn => simpa [hn, Turn.isBlock] using WscfStep.noCommand vs s.seenFc s.view
    | masterOwn vs todo m hn _ => simpa [hn, Turn.isBlock] using WscfStep.noCommand vs s.seenFc s.view

end Sys2Proof.Machine

/-! PROOFS, 43_frame_sequences.md: the course of a master's program, which no schedule without a reset changes; FRAME.CSUM and
FRAME.SEND as rules about courses (R102, R104), and a report from end to end (R109); FRAME.CSUM under the empty schedule; the
two orders of an update and a send (R107). -/

namespace Sys2Proof.Machine

/-! ### The course of a program -/

/-- What the master has come to (R8): what is left of its program, its memory, its copy of the last response, the accumulator
and the bytes sent, the one in flight among them. -/
structure Course where
  todo : List MasterOp
  mem : Memory
  last : Byte
  acc : Byte
  sent : List Byte

/-- The course as it stands in `s`. -/
def State.course (s : State) : Course := ⟨s.todo, s.mem, s.lastResponse, s.acc, s.wire ++ s.inFlight⟩

/-- What a command adds to a course; an FC.STATUS that it answers with `status`. -/
def Course.command (status : Byte) : Instr → Course → Course
  | .csumReset, x => { x with acc := 0 }
  | .csumUpdate b, x => { x with acc := updated x.acc b, last := updated x.acc b }
  | .csumValue, x => { x with last := x.acc }
  | .txSendByte b, x => { x with sent := x.sent ++ [b] }
  | .fcStatus, x => { x with last := status }

/-- The master's next action, which an FC.STATUS in it answers with `status`. Where it rests, stops or is refused nothing
happens. -/
def Course.next (status : Byte) (x : Course) : Course :=
  match actOf x.mem x.last x.todo with
  | .rest | .stop _ => x
  | .own todo mem => { x with todo := todo, mem := mem }
  | .present w todo =>
    match decode w with
    | .ok i => Course.command status i { x with todo := todo }
    | .error _ => x

theorem Course.next_of_own {x : Course} {todo : List MasterOp} {m : Memory} (status : Byte)
    (h : actOf x.mem x.last x.todo = .own todo m) : x.next status = { x with todo := todo, mem := m } := by
  simp [Course.next, h]

theorem Course.next_of_present {x : Course} {w : Word} {i : Instr} {todo : List MasterOp} (status : Byte)
    (h : actOf x.mem x.last x.todo = .present w todo) (hd : decode w = .ok i) :
    x.next status = Course.command status i { x with todo := todo } := by
  simp [Course.next, h, hd]

theorem Course.next_of_nil {x : Course} (status : Byte) (h : x.todo = []) : x.next status = x := by
  simp [Course.next, h, actOf]

theorem course_of_idle {s : State} (h : s.phase = .idle) :
    s.course = ⟨s.todo, s.mem, s.lastResponse, s.acc, s.wire⟩ := by
  simp [State.course, inFlight_of_ne_wait, h]

@[simp] theorem course_strobesLow (s : State) : (strobesLow s).course = s.course := rfl
@[simp] theorem course_dropTurn (s : State) : s.dropTurn.course = s.course := rfl
@[simp] theorem course_levelsMove (vs : List Bool) (s : State) : (levelsMove vs s).course = s.course := rfl
@[simp] theorem course_levelsMoved (vs : List Bool) (u : Bool) (s : State) : (levelsMoved vs u s).course = s.course := rfl
@[simp] theorem course_guardTick (s : State) : (guardTick s).course = s.course := rfl
@[simp] theorem course_fcDrive (v : Bool) (s : State) : (fcDrive v s).course = s.course := rfl
@[simp] theorem course_uartDrain (s : State) : (uartDrain s).course = s.course := rfl
@[simp] theorem course_setTodo (todo : List MasterOp) (s : State) :
    (setTodo todo s).course = { s.course with todo := todo } := rfl
@[simp] theorem course_actOwn (todo : List MasterOp) (m : Memory) (s : State) :
    (actOwn todo m s).course = { s.course with todo := todo, mem := m } := rfl

@[simp] theorem course_blockStep (s : State) : (blockStep s).course = s.course := by
  simp [State.course, blockStep_wire_inFlight, State.lastResponse]

theorem course_effect (i : Instr) {s : State} (h : s.phase = .idle) :
    (effect i s).course = Course.command (statusByte s.txEmpty s.sampleFc) i s.course := by
  cases i <;> simp [State.course, State.lastResponse, effect, Course.command, inFlight_of_ne_wait, h]

/-- A step without a reset leaves the course, or is the master's next action. -/
theorem course_of_step {s t : State} (h : step s = .next t) (hr : s.nextTurn ≠ .reset) :
    t.course = s.course ∨ ∃ status, t.course = s.course.next status := by
  rcases step_next h with ⟨hn, -⟩ | ⟨vs, -, rfl⟩ | ⟨-, rfl⟩ | ⟨v, -, rfl⟩ | ⟨-, rfl⟩ | ⟨vs, u, -, hm, rfl⟩
  · exact absurd hn hr
  · exact .inl (by simp)
  · exact .inl (by simp)
  · exact .inl (by simp)
  · exact .inl (by simp)
  · rcases masterTurn_next hm with ⟨rfl, -⟩ | ⟨-, todo, m, ha, rfl⟩ | ⟨hp, w, todo, i, ha, hd, hx⟩
    · exact .inl (by simp)
    · have act : s.masterAct = .own todo m := by simpa using ha
      exact .inr ⟨0, by simpa using (Course.next_of_own (x := s.course) 0 act).symm⟩
    · rcases exec_next hx with ⟨ready, rfl⟩ | ⟨hb, -⟩
      · have act : s.masterAct = .present w todo := by simpa using ha
        have effected := course_effect i ready
        rw [course_setTodo, course_levelsMove, course_strobesLow, course_dropTurn] at effected
        exact .inr ⟨_, effected.trans (Course.next_of_present (x := s.course) _ act hd).symm⟩
      · exact absurd hp hb

/-! ### Where a course leads -/

/-- `x` comes to `y` by actions of the master, whatever FC.STATUS answers on the way. -/
inductive Course.LeadsTo : Course → Course → Prop
  | here (x : Course) : LeadsTo x x
  | there {x y : Course} : (∀ status, LeadsTo (x.next status) y) → LeadsTo x y

theorem Course.LeadsTo.next {x y : Course} (status : Byte) (h : x.LeadsTo y) (hy : y.todo = []) :
    (x.next status).LeadsTo y := by
  cases h with
  | here => rw [Course.next_of_nil status hy]; exact .here x
  | there h => exact h status

theorem Course.LeadsTo.eq_of_nil {x y : Course} (h : x.LeadsTo y) (hx : x.todo = []) : x = y := by
  induction h with
  | here => rfl
  | there _ ih => exact (Course.next_of_nil 0 hx).symm.trans (ih 0 (by rwa [Course.next_of_nil 0 hx]))

/-- Every step without a reset keeps where the course leads, so an ended run has come to it. -/
theorem ended_of_leadsTo {n : Nat} {s t : State} {m : Memory} {last acc : Byte} {sent : List Byte} (hp : s.phase = .idle)
    (hs : s.NoReset) (hc : Course.LeadsTo ⟨s.todo, s.mem, s.lastResponse, s.acc, s.wire⟩ ⟨[], m, last, acc, sent⟩)
    (hrun : Reaches n s t) (hend : t.AtEnd) : t.acc = acc ∧ t.mem = m ∧ t.wire = sent := by
  obtain ⟨htodo, hidle⟩ := hend
  have keeps : ∀ u v : State, (u.NoReset ∧ u.course.LeadsTo ⟨[], m, last, acc, sent⟩) → step u = .next v →
      v.NoReset ∧ v.course.LeadsTo ⟨[], m, last, acc, sent⟩ := by
    rintro u v ⟨hu, hl⟩ h
    refine ⟨noReset_of_step h hu, ?_⟩
    rcases course_of_step h (nextTurn_ne_reset hu) with e | ⟨status, e⟩
    · rwa [e]
    · rw [e]; exact hl.next status rfl
  obtain ⟨-, hl⟩ := reaches_keeps keeps ⟨hs, by rwa [course_of_idle hp]⟩ hrun
  have final := hl.eq_of_nil htodo
  rw [course_of_idle hidle] at final
  obtain ⟨-, hmem, -, hacc, hwire⟩ := Course.mk.inj final
  exact ⟨hacc, hmem, hwire⟩

/-! ### The bytes of a frame in the master's memory -/

/-- The bytes from `a` on are `bs`. -/
def Memory.Holds (m : Memory) (a : Nat) (bs : List Byte) : Prop := ∀ k, k < bs.length → m.read (a + k) = bs[k]?

theorem Memory.holds_cons {m : Memory} {a : Nat} {b : Byte} {bs : List Byte} (h : m.Holds a (b :: bs)) :
    m.read a = some b ∧ m.Holds (a + 1) bs := by
  refine ⟨h 0 (by simp), fun k hk => ?_⟩
  rw [Nat.add_right_comm]
  exact h (k + 1) (Nat.succ_lt_succ hk)

theorem Memory.holds_append_singleton {m : Memory} {a : Nat} {bs : List Byte} {c : Byte} :
    m.Holds a (bs ++ [c]) ↔ m.Holds a bs ∧ m.read (a + bs.length) = some c := by
  simp only [Memory.Holds, List.length_append, List.length_singleton, Nat.lt_succ_iff_lt_or_eq, or_imp, forall_and,
    forall_eq, List.getElem?_concat_length]
  refine and_congr_left fun _ => forall₂_congr fun k hk => ?_
  rw [List.getElem?_append_left hk]

theorem Memory.holds_write {m : Memory} {a : Nat} {bs : List Byte} (c : Byte) (h : m.Holds a bs) :
    (m.write (a + bs.length) c).Holds a (bs ++ [c]) := by
  refine Memory.holds_append_singleton.2 ⟨fun k hk => ?_, Memory.read_write_same m _ c⟩
  rw [Memory.read_write_other m c (by omega)]
  exact h k hk

/-! ### Where the lines of the two frame programs lead -/

section
variable {m : Memory} {a : Nat} {last acc : Byte} {sent : List Byte} {rest : List MasterOp} {y : Course}

theorem leadsTo_of_own {todo todo' : List MasterOp} {m' : Memory}
    (ha : actOf m last todo = .own todo' m') (h : Course.LeadsTo ⟨todo', m', last, acc, sent⟩ y) :
    Course.LeadsTo ⟨todo, m, last, acc, sent⟩ y :=
  .there fun status => by rwa [Course.next_of_own status ha]

theorem leadsTo_of_command {todo todo' : List MasterOp} {i : Instr} (ha : actOf m last todo = .present (encode i) todo')
    (h : ∀ status, (Course.command status i ⟨todo', m, last, acc, sent⟩).LeadsTo y) :
    Course.LeadsTo ⟨todo, m, last, acc, sent⟩ y :=
  .there fun status => by rw [Course.next_of_present status ha (decode_encode i)]; exact h status

theorem actOf_updateFrom {b : Byte} (h : m.read a = some b) :
    actOf m last (.updateFrom a :: rest) = .present (encode (.csumUpdate b)) rest := by
  simp [actOf, withByte, h]

theorem actOf_sendFrom {b : Byte} (h : m.read a = some b) :
    actOf m last (.sendFrom a :: rest) = .present (encode (.txSendByte b)) rest := by
  simp [actOf, withByte, h]

/-- The lines `op a`, `op (a + 1)` and so on, `n` of them. -/
def linesFrom (op : Nat → MasterOp) (a n : Nat) : List MasterOp := (List.range n).map fun k => op (a + k)

theorem linesFrom_succ (op : Nat → MasterOp) (a n : Nat) : linesFrom op a (n + 1) = op a :: linesFrom op (a + 1) n := by
  simp [linesFrom, List.range_succ_eq_map, Nat.add_right_comm a 1, ← Nat.add_assoc]

/-- One CSUM.UPDATE for each byte of memory. -/
theorem leadsTo_updates {bs : List Byte} (hm : m.Holds a bs)
    (h : ∀ last, Course.LeadsTo ⟨rest, m, last, bs.foldl updated acc, sent⟩ y) :
    Course.LeadsTo ⟨linesFrom .updateFrom a bs.length ++ rest, m, last, acc, sent⟩ y := by
  induction bs generalizing a last acc with
  | nil => exact h last
  | cons b bs ih =>
    obtain ⟨hb, hbs⟩ := Memory.holds_cons hm
    rw [List.length_cons, linesFrom_succ]
    exact leadsTo_of_command (actOf_updateFrom hb) fun _ => ih hbs h

/-- One TX.SENDBYTE for each byte of memory. -/
theorem leadsTo_sends {bs : List Byte} (hm : m.Holds a bs) (h : Course.LeadsTo ⟨rest, m, last, acc, sent ++ bs⟩ y) :
    Course.LeadsTo ⟨linesFrom .sendFrom a bs.length ++ rest, m, last, acc, sent⟩ y := by
  induction bs generalizing a sent with
  | nil => simpa [linesFrom] using h
  | cons b bs ih =>
    obtain ⟨hb, hbs⟩ := Memory.holds_cons hm
    rw [List.length_cons, linesFrom_succ]
    exact leadsTo_of_command (actOf_sendFrom hb) fun _ => ih hbs (by simpa using h)

/-- The lines of FRAME.CSUM (R102) for `n` bytes. -/
def frameCsumLines (a n : Nat) : List MasterOp :=
  .present (encode .csumReset) :: (linesFrom .updateFrom a n ++ [.present (encode .csumValue), .storeRsp (a + 8)])

theorem frameCsumOps_eq (a : Nat) : frameCsumOps a = frameCsumLines a 8 := rfl

/-- FRAME.CSUM (R102): the checksum of the eight bytes is stored behind them. -/
theorem leadsTo_frameCsum {bs : List Byte} (hlen : bs.length = 8) (hm : m.Holds a bs)
    (h : Course.LeadsTo ⟨rest, m.write (a + 8) (checksum bs), checksum bs, checksum bs, sent⟩ y) :
    Course.LeadsTo ⟨.frameCsum a :: rest, m, last, acc, sent⟩ y := by
  refine leadsTo_of_own (todo' := frameCsumOps a ++ rest) rfl ?_
  rw [frameCsumOps_eq, ← hlen, frameCsumLines, List.cons_append, List.append_assoc]
  exact leadsTo_of_command (i := .csumReset) rfl fun _ => leadsTo_updates hm fun _ =>
    leadsTo_of_command (i := .csumValue) rfl fun _ => leadsTo_of_own rfl h

/-- The lines of FRAME.SEND (R104) for `n` bytes and the one behind them. -/
def frameSendLines (a n : Nat) : List MasterOp := linesFrom .sendFrom a n ++ [.rearm, .sendFrom (a + n)]

theorem frameSendOps_eq (a : Nat) : frameSendOps a = frameSendLines a 8 := rfl

/-- FRAME.SEND (R104): eight bytes and the one behind them are sent. -/
theorem leadsTo_frameSend {bs : List Byte} {c : Byte} (hlen : bs.length = 8) (hm : m.Holds a (bs ++ [c]))
    (h : Course.LeadsTo ⟨rest, m, last, acc, sent ++ (bs ++ [c])⟩ y) :
    Course.LeadsTo ⟨.frameSend a :: rest, m, last, acc, sent⟩ y := by
  obtain ⟨hbs, hc⟩ := Memory.holds_append_singleton.1 hm
  refine leadsTo_of_own (todo' := frameSendOps a ++ rest) rfl ?_
  rw [frameSendOps_eq, ← hlen, frameSendLines, List.append_assoc]
  exact leadsTo_sends hbs (leadsTo_of_own rfl
    (leadsTo_of_command (actOf_sendFrom hc) fun _ => by simpa [Course.command] using h))

end

/-- Settles O44, by where the course of FRAME.SEND leads. -/
theorem frameSendPutsNineBytesOnTheWire : Obligations.FrameSendPutsNineBytesOnTheWire := by
  intro s a bs n t hp ht hlen hm hnr hrun hend
  obtain ⟨data, c, rfl⟩ := (List.eq_nil_or_concat' bs).resolve_left (by rintro rfl; cases hlen)
  have eight : data.length = 8 := by simpa using hlen
  have holds : s.mem.Holds a (data ++ [c]) := fun k hk => hm k (hlen ▸ hk)
  obtain ⟨hacc, hmem, hwire⟩ :=
    ended_of_leadsTo hp hnr (by rw [ht]; exact leadsTo_frameSend eight holds (.here _)) hrun hend
  exact ⟨hwire, hacc, hmem⟩

/-- Settles O46: the course of FRAME.CSUM leads to that of FRAME.SEND on the nine bytes that it leaves in memory. -/
theorem reportedFrameCarriesItsChecksum : Obligations.ReportedFrameCarriesItsChecksum := by
  intro s a bs n t hp ht hlen hm hnr hrun hend
  have holds : s.mem.Holds a bs := fun k hk => hm k (hlen ▸ hk)
  have stored : (s.mem.write (a + 8) (checksum bs)).Holds a (withChecksum bs) :=
    hlen ▸ Memory.holds_write (checksum bs) holds
  obtain ⟨-, -, hwire⟩ := ended_of_leadsTo hp hnr
    (by rw [ht]; exact leadsTo_frameCsum hlen holds (leadsTo_frameSend hlen stored (.here _))) hrun hend
  exact ⟨hwire, checksum_withChecksum bs⟩

/-! ### FRAME.CSUM under the empty schedule (log 8) -/

/-- The port is ready and the schedule empty, with `todo` left to do. -/
structure State.ReadyFor (s : State) (todo : List MasterOp) : Prop where
  phase : s.phase = .idle
  turns : s.turns = []
  todo_eq : s.todo = todo

/-- Where the master has something to do it is its turn. -/
theorem State.ReadyFor.nextTurn {s : State} {todo : List MasterOp} (h : s.ReadyFor todo) (ha : s.masterAct ≠ .rest) :
    s.nextTurn = .master [] := by
  have hne : s.todo ≠ [] := mt masterAct_nil ha
  simp [State.nextTurn, defaultTurn, h.phase, h.turns, hne]

/-- An action of the master's own is the first step of an ended run. -/
theorem endedRun_of_own {k : Nat} {s t : State} {todo todo' : List MasterOp} {m : Memory} (h : s.ReadyFor todo)
    (ha : actOf s.mem s.lastResponse todo = .own todo' m)
    (hrun : EndedRun k (actOwn todo' m (strobesLow s.dropTurn)) t) : EndedRun (k + 1) s t := by
  have act : s.masterAct = .own todo' m := by rw [State.masterAct, h.todo_eq, ha]
  have turn := h.nextTurn (by simp [act])
  have acted : step s = .next (actOwn todo' m (strobesLow s.dropTurn)) := by
    rw [step_master turn, levelsMove_nil, masterTurn_own (by exact h.phase) (by exact act), onNext]
    exact congrArg _ (levelsMoved_nil id)
  have reads : s.readsUnwrittenAcc = false := by simp [State.readsUnwrittenAcc, executes_eq_none, act]
  exact endedRun_succ.2 ⟨reads, _, acted, hrun⟩

/-- A command that reads no unwritten accumulator is the first step of an ended run. -/
theorem endedRun_of_command {k : Nat} {s t : State} {todo todo' : List MasterOp} {i : Instr} (h : s.ReadyFor todo)
    (ha : actOf s.mem s.lastResponse todo = .present (encode i) todo') (hw : i = .csumReset ∨ s.accWritten = true)
    (hrun : EndedRun k (effect i (setTodo todo' (strobesLow s.dropTurn))) t) : EndedRun (k + 1) s t := by
  have act : s.masterAct = .present (encode i) todo' := by rw [State.masterAct, h.todo_eq, ha]
  have turn := h.nextTurn (by simp [act])
  have executed : s.executes = some i :=
    executes_of_decode_ok (presented_eq_some.2 ⟨⟨[], turn⟩, h.phase, todo', act⟩) (decode_encode i)
  have acted : step s = .next (effect i (setTodo todo' (strobesLow s.dropTurn))) := by
    rw [stepRunsPresentedCommand.1 s _ todo' i turn h.phase act (decode_encode i), exec_idle (by exact h.phase)]
  have reads : s.readsUnwrittenAcc = false := by
    rcases hw with rfl | hw
    · simp [State.readsUnwrittenAcc, executed]
    · cases i <;> simp [State.readsUnwrittenAcc, executed, hw]
  exact endedRun_succ.2 ⟨reads, _, acted, hrun⟩

/-- The updates are the first steps of an ended run. -/
theorem exists_endedRun_updates {k a : Nat} {bs : List Byte} {rest : List MasterOp} {s : State}
    (h : s.ReadyFor (linesFrom .updateFrom a bs.length ++ rest)) (hw : s.accWritten = true) (hm : s.mem.Holds a bs)
    (hrest : ∀ u : State, u.ReadyFor rest → u.accWritten = true → ∃ t, EndedRun k u t) :
    ∃ t, EndedRun (bs.length + k) s t := by
  induction bs generalizing a s with
  | nil => simpa using hrest s h hw
  | cons b bs ih =>
    obtain ⟨hb, hbs⟩ := Memory.holds_cons hm
    rw [List.length_cons, linesFrom_succ] at h
    obtain ⟨t, hrun⟩ := ih
      (s := effect (.csumUpdate b) (setTodo (linesFrom .updateFrom (a + 1) bs.length ++ rest) (strobesLow s.dropTurn)))
      ⟨h.phase, by simp [h.turns], rfl⟩ hw hbs
    rw [List.length_cons, Nat.add_right_comm]
    exact ⟨t, endedRun_of_command h (actOf_updateFrom hb) (.inr hw) hrun⟩

/-- The two lines behind the updates (R102) end the run. -/
theorem exists_endedRun_storeChecksum {a : Nat} {s : State}
    (h : s.ReadyFor [.present (encode .csumValue), .storeRsp (a + 8)]) (hw : s.accWritten = true) :
    ∃ t, EndedRun 2 s t := by
  have answered : (effect .csumValue (setTodo [.storeRsp (a + 8)] (strobesLow s.dropTurn))).ReadyFor [.storeRsp (a + 8)] :=
    ⟨h.phase, by simp [h.turns], rfl⟩
  exact ⟨_, endedRun_of_command h rfl (.inr hw) (endedRun_of_own answered rfl
    (endedRun_zero.2 ⟨rfl, rfl, by simp [answered.phase]⟩))⟩

/-- The expansion of FRAME.CSUM ends the run, whatever the accumulator held. -/
theorem exists_endedRun_frameCsumLines {a : Nat} {bs : List Byte} {s : State} (h : s.ReadyFor (frameCsumLines a bs.length))
    (hm : s.mem.Holds a bs) : ∃ t, EndedRun (bs.length + 3) s t := by
  obtain ⟨t, hrun⟩ := exists_endedRun_updates (s := effect .csumReset (setTodo _ (strobesLow s.dropTurn)))
    ⟨h.phase, by simp [h.turns], rfl⟩ rfl hm fun _ => exists_endedRun_storeChecksum
  exact ⟨t, endedRun_of_command h rfl (.inl rfl) hrun⟩

theorem exists_endedRun_frameCsum {a : Nat} {bs : List Byte} {s : State} (h : s.ReadyFor [.frameCsum a])
    (hlen : bs.length = 8) (hm : s.mem.Holds a bs) : ∃ t, EndedRun 12 s t := by
  have expanded : (actOwn (frameCsumOps a) s.mem (strobesLow s.dropTurn)).ReadyFor (frameCsumLines a bs.length) :=
    ⟨h.phase, by simp [h.turns], by rw [actOwn_todo, frameCsumOps_eq, hlen]⟩
  obtain ⟨t, hrun⟩ := exists_endedRun_frameCsumLines expanded hm
  rw [hlen] at hrun
  exact ⟨t, endedRun_of_own h (by simp [actOf]) hrun⟩

/-- Settles O43: where the course of FRAME.CSUM leads, and its twelve steps one after the other. -/
theorem frameCsumStoresTheChecksum : Obligations.FrameCsumStoresTheChecksum := by
  intro s a bs hp ht hlen hm
  have holds : s.mem.Holds a bs := fun k hk => hm k (hlen ▸ hk)
  exact ⟨fun n t hnr hrun hend =>
    ended_of_leadsTo hp hnr (by rw [ht]; exact leadsTo_frameCsum hlen holds (.here _)) hrun hend,
    fun hs => exists_endedRun_frameCsum ⟨hp, hs, ht⟩ hlen holds⟩

/-! ### An update and a send in either order (R107) -/

/-- The state after a TX.SENDBYTE under the empty schedule, the far end ready and the buffer empty. -/
def State.afterSend (b : Byte) (todo : List MasterOp) (s : State) : State :=
  { s with todo := todo, pend := b, guardCnt := 0, txEmpty := false, txWr := false, txData := b, done := true, rsp := none,
           wire := s.wire ++ [b], pos := s.pos + 1, draws := s.draws + 1 }

/-- The default schedule gives a send its three turns (R81, log 8). -/
theorem reaches_afterSend {s : State} {b : Byte} {todo : List MasterOp}
    (h : s.ReadyFor (.present (encode (.txSendByte b)) :: todo)) (hu : s.fcUnsettled = false) (hf : s.fcNrdy = false)
    (he : s.txEmpty = true) : Reaches 3 s (s.afterSend b todo) := by
  have accepted := step_present h.phase h.turns h.todo_eq
  have blocks : (acceptSend b (setTodo todo (strobesLow s.dropTurn))).nextTurn = .block [] := by
    simp [State.nextTurn, defaultTurn, h.turns, he]
  have ready : (acceptSend b (setTodo todo (strobesLow s.dropTurn))).seenFc = false :=
    (seenFc_of_still (s := acceptSend b (setTodo todo (strobesLow s.dropTurn))) hu (by rw [blocks]; rfl)).trans hf
  have written := (waitStepWritesExactlyWhenOpen _ [] blocks rfl).1 ready he
  refine reaches_succ.2 ⟨_, accepted, reaches_succ.2 ⟨_, written, reaches_succ.2
    ⟨_, guardStepCompletesTheSend _ [] (by simp [State.nextTurn, defaultTurn, h.turns]) rfl, reaches_zero.2 ?_⟩⟩⟩
  simp [State.afterSend, acceptSend, setTodo, strobesLow, State.dropTurn, h.turns, h.phase, hu]

section
variable {s : State} {b x : Byte} {rest : List MasterOp} (hu : s.fcUnsettled = false) (hf : s.fcNrdy = false)
  (he : s.txEmpty = true)
include hu hf he

theorem reaches_update_send
    (h : s.ReadyFor (.present (encode (.csumUpdate b)) :: .present (encode (.txSendByte x)) :: rest)) :
    Reaches 4 s ((effect (.csumUpdate b) (setTodo (.present (encode (.txSendByte x)) :: rest)
      (strobesLow s.dropTurn))).afterSend x rest) :=
  reaches_succ.2 ⟨_, step_present h.phase h.turns h.todo_eq,
    reaches_afterSend ⟨h.phase, by simp [h.turns], rfl⟩ hu hf he⟩

theorem reaches_send_update
    (h : s.ReadyFor (.present (encode (.txSendByte x)) :: .present (encode (.csumUpdate b)) :: rest)) :
    Reaches 4 s (effect (.csumUpdate b) (setTodo rest
      (strobesLow (s.afterSend x (.present (encode (.csumUpdate b)) :: rest)).dropTurn))) :=
  reaches_add (reaches_afterSend h hu hf he)
    (reaches_succ.2 ⟨_, step_present h.phase h.turns rfl, reaches_zero.2 rfl⟩)

end

/-- Settles O47: neither order's update looks at what the send changes, nor its send at what the update changes. -/
theorem interleavingChangesNoResult : Obligations.InterleavingChangesNoResult := by
  intro s b x rest hp hs hu hf he
  exact ⟨_, _, reaches_update_send hu hf he ⟨hp, hs, rfl⟩, reaches_send_update hu hf he ⟨hp, hs, rfl⟩,
    rfl, rfl, rfl, rfl, rfl, rfl, rfl⟩

end Sys2Proof.Machine

/-! PROOFS, 60_exceptions.md: the three outcomes of a step, of which only the master's turn at a ready port has the last two
(R115, R116); the hardware reset (R119, R123). -/

namespace Sys2Proof.Machine

/-! ### What can stop a step -/

theorem exists_exec_next (i : Instr) (s : State) : ∃ t, exec i s = .next t := by
  by_cases hp : s.phase = .idle
  · exact ⟨_, exec_idle hp i⟩
  · exact ⟨_, exec_busy hp i⟩

/-- Only in the master's turn can a step stop. -/
theorem exists_step_next_of_not_master {s : State} (h : ∀ vs, s.nextTurn ≠ .master vs) : ∃ t, step s = .next t := by
  unfold step
  cases hn : s.nextTurn with
  | master vs => exact absurd hn (h vs)
  | block vs | guardTick | fcDrive v | uartDrain | reset => exact ⟨_, rfl⟩

/-- The master's turn at a ready port answers a next state, or the master stops, or its word is reserved. -/
theorem masterTurn_idle_cases {s : State} (hp : s.phase = .idle) :
    (∃ t, masterTurn s = .next t) ∨ (∃ r, s.masterAct = .stop r ∧ masterTurn s = .fault r) ∨
    (∃ w todo why, s.masterAct = .present w todo ∧ decode w = .error why) := by
  cases ha : s.masterAct with
  | rest => exact .inl ⟨s, by simp [masterTurn, (cmdReady_iff s).2 hp, ha]⟩
  | own todo m => exact .inl ⟨_, masterTurn_own hp ha⟩
  | stop r => exact .inr (.inl ⟨r, rfl, by simp [masterTurn, (cmdReady_iff s).2 hp, ha]⟩)
  | present w todo =>
    cases hd : decode w with
    | error why => exact .inr (.inr ⟨w, todo, why, rfl, hd⟩)
    | ok i =>
      rw [masterTurn_present hp ha hd]
      exact .inl (exists_exec_next i _)

/-- The three outcomes of a step: a next state; the refusal of a reserved word that the master presents (R51); the fault of
the master's read of a byte that nothing has written. -/
theorem step_outcome (s : State) :
    (∃ t, step s = .next t) ∨
    (∃ w why, s.presented = some w ∧ decode w = .error why ∧ step s = .refused (.reservedWord w why)) ∨
    (∃ a, s.nextTurn.isMaster = true ∧ s.phase = .idle ∧ s.mem.read a = none ∧ step s = .fault (.unwrittenByte a)) := by
  by_cases hm : ∃ vs, s.nextTurn = .master vs
  · obtain ⟨vs, hn⟩ := hm
    by_cases hp : s.phase = .idle
    · have ready : (levelsMove vs (strobesLow s.dropTurn)).phase = .idle := hp
      rcases masterTurn_idle_cases ready with ⟨t, ht⟩ | ⟨r, ha, hr⟩ | ⟨w, todo, why, ha, hd⟩
      · exact .inl ⟨_, by rw [step_master hn, ht, onNext]⟩
      · obtain ⟨a, rfl, hread⟩ := actOf_stop ha
        exact .inr (.inr ⟨a, by rw [hn, Turn.isMaster], hp, hread, by rw [step_master hn, hr, onNext]⟩)
      · have presents : s.presented = some w := presented_eq_some.2 ⟨⟨vs, hn⟩, hp, todo, by simpa using ha⟩
        exact .inr (.inl ⟨w, why, presents, hd, step_of_reserved presents hd⟩)
    · exact .inl ⟨_, busyPortTakesNoCommand.2 s vs hp hn⟩
  · exact .inl (exists_step_next_of_not_master (not_exists.1 hm))

/-- Settles O8: a step that does not answer a next state has one of the two other outcomes. -/
theorem blockRaisesNoException : Obligations.BlockRaisesNoException := by
  refine ⟨exists_exec_next, fun s r h => ?_, fun s r h => ?_⟩
  · rcases step_outcome s with ⟨t, e⟩ | ⟨w, why, hw, hd, e⟩ | ⟨a, -, -, -, e⟩
    · cases e.symm.trans h
    · exact ⟨w, why, hw, hd, (Host.Outcome.refused.inj (e.symm.trans h)).symm⟩
    · cases e.symm.trans h
  · rcases step_outcome s with ⟨t, e⟩ | ⟨w, why, -, -, e⟩ | ⟨a, hm, hp, hread, e⟩
    · cases e.symm.trans h
    · cases e.symm.trans h
    · exact ⟨hm, hp, a, (Host.Outcome.fault.inj (e.symm.trans h)).symm, hread⟩

/-! ### The hardware reset -/

theorem step_reset {s : State} (h : s.nextTurn = .reset) : step s = .next (restart s.dropTurn) := by
  simp [step, takeTurn, h]

/-- The record after a reset is that of the reset state, but for what a reset leaves open or keeps (R28, R143). -/
theorem view_restart_eq_reset (s : State) : (restart s).view =
    { State.reset.view with pend := (restart s).pend, txEmpty := (restart s).txEmpty, fcNrdy := s.fcNrdy } := by
  rw [view_restart]
  rfl

/-- Settles O40: a reset turn is `restart`, whatever was due in its step. -/
theorem restartPutsTheBlockInItsResetState : Obligations.RestartPutsTheBlockInItsResetState := fun s h =>
  ⟨restart s.dropTurn, step_reset h, view_restart_eq_reset s.dropTurn, restart_guardCnt _, restart_txWr _, restart_rsp _,
    (cmdReady_iff _).2 (restart_phase _), restart_fcUnsettled _, restart_responses _, restart_pos _, restart_program _,
    restart_todo _, restart_mem _, restart_turns _⟩

end Sys2Proof.Machine

/-! PROOFS, 70_reset_and_hazards.md: what a hardware reset does to a command in progress (R142). -/

namespace Sys2Proof.Machine

/-- R142: after a reset no byte waits to be written. -/
@[simp] theorem inFlight_restart (s : State) : (restart s).inFlight = [] :=
  inFlight_of_ne_wait (by simp)

/-- Settles O39: a reset turn is `restart`, in every phase; the wire it puts into the history is the one before the step. -/
theorem restartAbandonsTheCommand : Obligations.RestartAbandonsTheCommand := fun s h =>
  ⟨restart s.dropTurn, step_reset h, restart_accWritten _, restart_phase _, restart_wire _, restart_pastWires _,
    restart_done _, inFlight_restart _⟩

end Sys2Proof.Machine

/-! PROOFS, 00_scope.md section 7: how a command comes to run in the model (log 6). -/

namespace Sys2Proof.Machine

/-- A word is the table word of 16 bits that stands for it. -/
theorem withFetchWord_toNat (s : State) (w : Word) : s.withFetchWord 16 w.toNat = presentNext w s := by
  rw [State.withFetchWord, BitVec.toNat_mod_cancel, BitVec.ofNat_toNat, BitVec.setWidth_eq]

/-- It is the master's turn, with the level at rest. -/
@[simp] theorem nextTurn_presentNext (w : Word) (s : State) : (presentNext w s).nextTurn = .master [] := rfl

/-- The master presents the word, and is then where it was in its program. -/
@[simp] theorem masterAct_presentNext (w : Word) (s : State) : (presentNext w s).masterAct = .present w s.todo := rfl

/-- Once the turn and the word are used up, nothing but the ready port is left of `presentNext`. -/
theorem setTodo_dropTurn_presentNext (w : Word) (s : State) :
    setTodo s.todo (strobesLow (presentNext w s).dropTurn) = { strobesLow s with phase := .idle } := rfl

/-- A legal word made the next one is executed in the very next step. -/
theorem step_presentNext {w : Word} {i : Instr} (hd : decode w = .ok i) (s : State) :
    step (presentNext w s) = exec i { strobesLow s with phase := .idle } := by
  rw [← setTodo_dropTurn_presentNext w s]
  exact stepRunsPresentedCommand.1 (presentNext w s) w s.todo i (nextTurn_presentNext w s) (presentNext_phase w s)
    (masterAct_presentNext w s) hd

/-- Settles O6: the table word is the command's encoding, made the next one, and the decoder inverts the encoder. -/
theorem fetchWordRunsAsNextCommand : Obligations.FetchWordRunsAsNextCommand := fun s i => by
  rw [withFetchWord_toNat, step_presentNext (decode_encode i)]

end Sys2Proof.Machine
